-- ==== Sys2Proof/Word.lean ====
section
/-! DEFINITION. The word types of the block (00_scope.md R9): every value crosses the host port as a whole
32-bit word, pin ids have 8 bits (00_scope.md R5). -/

namespace Sys2Proof

/-- A 32-bit word, bit 0 the least significant (00_scope.md R9). -/
abbrev Word := BitVec 32

/-- A pin id: 8 bits (00_scope.md R5, decision D10). -/
abbrev Pin := BitVec 8

/-- A CSR address as the encoding carries it: 12 bits (30_encoding.md R81). -/
abbrev CsrField := BitVec 12

end Sys2Proof
end

