-- ==== Sys2Proof/Syntax.lean ====
section
/-! DEFINITION. The host commands (30_encoding.md R86), one constructor per row of spec/opcode_table.json. -/

namespace Sys2Proof

/-- A host command with its operands. An `ARG8` and a `CSRA` are read as unsigned integers (30_encoding.md R85);
`WDATA` is used unchanged, as 32 bits, by CSRW alone. -/
inductive Instr where
  /-- NOP (44_csr.md R220). -/
  | nop
  /-- INIT (43_dispatcher.md R185). -/
  | init
  /-- START n: the activity set becomes slots `0 .. n-1` (43_dispatcher.md R186). -/
  | start (n : Nat)
  /-- STOP (43_dispatcher.md R187). -/
  | stop
  /-- ISACTIVE (43_dispatcher.md R188). -/
  | isactive
  /-- ACTCFG i: configure slot `i` from the staging registers (43_dispatcher.md R189). -/
  | actcfg (i : Nat)
  /-- AVAIL (40_ringbuffer.md R118). -/
  | avail
  /-- SPACE (40_ringbuffer.md R119). -/
  | space
  /-- GET (40_ringbuffer.md R120). -/
  | get
  /-- FLUSH (40_ringbuffer.md R121). -/
  | flush
  /-- CSRR a: read the CSR at address `a` (44_csr.md R221). -/
  | csrr (a : Nat)
  /-- CSRW a, v: write `v` to the CSR at address `a` (44_csr.md R222). -/
  | csrw (a : Nat) (v : Word)
deriving DecidableEq, Repr

end Sys2Proof
end

