-- ==== Sys2Proof/WellFormed.lean ====
section
/-! DEFINITION. Which commands have an encoding: the operand ranges of 30_encoding.md R85 and R91. -/

namespace Sys2Proof

/-- The operand ranges of 30_encoding.md R91 (`0 <= n <= 255`, `0 <= i <= 255`, `0 <= a <= 0xFFF`), as a check. -/
def Instr.wellFormed (i : Instr) : Bool :=
  match i with
  | .nop => true
  | .init => true
  | .start n => decide (n ≤ 255)
  | .stop => true
  | .isactive => true
  | .actcfg k => decide (k ≤ 255)
  | .avail => true
  | .space => true
  | .get => true
  | .flush => true
  | .csrr a => decide (a ≤ 0xFFF)
  | .csrw a _ => decide (a ≤ 0xFFF)

/-- The check as a proposition. -/
abbrev Instr.WellFormed (i : Instr) : Prop := i.wellFormed = true

end Sys2Proof
end

