-- ==== Sys2Proof/Decode.lean ====
section
/-! DEFINITION. The command encoding of 30_encoding.md: the decoder, total on every pair of words, rejecting by
name, and after it the encoder, written from the same tables; then the assembler's helpers (R92, R93) and the
opcode table's own numbering of an instruction's bits. -/

namespace Sys2Proof

/-! ## Fields (R81) -/

/-- `OPC`, bits 31:24. -/
def opcField (cmd : Word) : BitVec 8 := cmd.extractLsb' 24 8

/-- `ARG8`, bits 23:16. -/
def arg8Field (cmd : Word) : BitVec 8 := cmd.extractLsb' 16 8

/-- `RSV`, bits 15:12. -/
def rsvField (cmd : Word) : BitVec 4 := cmd.extractLsb' 12 4

/-- `CSRA`, bits 11:0. -/
def csraField (cmd : Word) : CsrField := cmd.extractLsb' 0 12

/-! ## Opcodes and formats (R82 to R86) -/

/-- The three formats of R82 (no operand), R83 (argument) and R84 (CSR). -/
inductive Format where
  | n
  | a
  | c
deriving DecidableEq, Repr

/-- The twelve commands of R86. -/
inductive Opcode where
  | nop | init | start | stop | isactive | actcfg | avail | space | get | flush | csrr | csrw
deriving DecidableEq, Repr

/-- A row of the opcode map R86. -/
structure OpcodeRow where
  opc : BitVec 8
  op : Opcode
deriving DecidableEq, Repr

/-- The opcode map R86. Every `OPC` value not listed is illegal (R88). -/
def opcodeMap : List OpcodeRow :=
  [ ⟨0x00#8, .nop⟩, ⟨0x01#8, .init⟩, ⟨0x02#8, .start⟩, ⟨0x03#8, .stop⟩, ⟨0x04#8, .isactive⟩, ⟨0x08#8, .actcfg⟩,
    ⟨0x10#8, .avail⟩, ⟨0x11#8, .space⟩, ⟨0x12#8, .get⟩, ⟨0x13#8, .flush⟩, ⟨0x20#8, .csrr⟩, ⟨0x21#8, .csrw⟩ ]

/-- The command of an `OPC` value, if R86 lists it. -/
def Opcode.ofCode (b : BitVec 8) : Option Opcode :=
  (opcodeMap.find? (fun r => r.opc == b)).map OpcodeRow.op

/-- The `OPC` value of a command (R86). -/
def Opcode.code (op : Opcode) : BitVec 8 :=
  match op with
  | .nop => 0x00#8
  | .init => 0x01#8
  | .start => 0x02#8
  | .stop => 0x03#8
  | .isactive => 0x04#8
  | .actcfg => 0x08#8
  | .avail => 0x10#8
  | .space => 0x11#8
  | .get => 0x12#8
  | .flush => 0x13#8
  | .csrr => 0x20#8
  | .csrw => 0x21#8

/-- The format of a command (R86). -/
def Opcode.format (op : Opcode) : Format :=
  match op with
  | .nop => .n
  | .init => .n
  | .start => .a
  | .stop => .n
  | .isactive => .n
  | .actcfg => .a
  | .avail => .n
  | .space => .n
  | .get => .n
  | .flush => .n
  | .csrr => .c
  | .csrw => .c

/-- Whether the fields R82 to R84 say must be 0 are 0. -/
def Format.reservedClear (f : Format) (cmd : Word) : Bool :=
  match f with
  | .n => arg8Field cmd == 0 && rsvField cmd == 0 && csraField cmd == 0
  | .a => rsvField cmd == 0 && csraField cmd == 0
  | .c => arg8Field cmd == 0 && rsvField cmd == 0

/-! ## The decoder (R87) -/

/-- Why a word is no command (R88, R89). -/
inductive DecodeError where
  /-- `OPC` is not in the opcode map. -/
  | illegalOpcode
  /-- A listed `OPC` with a nonzero reserved field. -/
  | reservedField
deriving DecidableEq, Repr

/-- What a command word and its write data decode to. -/
inductive Decoded where
  | instr (i : Instr)
  | reject (e : DecodeError)
deriving DecidableEq, Repr

/-- Operand assembly (R85): unsigned `ARG8`, unsigned `CSRA`, `WDATA` unchanged. -/
def Opcode.assemble (op : Opcode) (cmd wdata : Word) : Instr :=
  match op with
  | .nop => .nop
  | .init => .init
  | .start => .start (arg8Field cmd).toNat
  | .stop => .stop
  | .isactive => .isactive
  | .actcfg => .actcfg (arg8Field cmd).toNat
  | .avail => .avail
  | .space => .space
  | .get => .get
  | .flush => .flush
  | .csrr => .csrr (csraField cmd).toNat
  | .csrw => .csrw (csraField cmd).toNat wdata

/-- `Decode(CMD)` of R87: the opcode is checked before the reserved fields (60_exceptions.md R244). -/
def decode (cmd wdata : Word) : Decoded :=
  match Opcode.ofCode (opcField cmd) with
  | none => .reject .illegalOpcode
  | some op =>
    if op.format.reservedClear cmd then .instr (op.assemble cmd wdata) else .reject .reservedField

/-! ## The encoder (R81 to R86) -/

/-- The command's opcode. -/
def Instr.opcode (i : Instr) : Opcode :=
  match i with
  | .nop => .nop
  | .init => .init
  | .start _ => .start
  | .stop => .stop
  | .isactive => .isactive
  | .actcfg _ => .actcfg
  | .avail => .avail
  | .space => .space
  | .get => .get
  | .flush => .flush
  | .csrr _ => .csrr
  | .csrw _ _ => .csrw

/-- The command's `ARG8` (R83). -/
def Instr.arg8 (i : Instr) : BitVec 8 :=
  match i with
  | .nop => 0
  | .init => 0
  | .start n => BitVec.ofNat 8 n
  | .stop => 0
  | .isactive => 0
  | .actcfg k => BitVec.ofNat 8 k
  | .avail => 0
  | .space => 0
  | .get => 0
  | .flush => 0
  | .csrr _ => 0
  | .csrw _ _ => 0

/-- The command's `CSRA` (R84). -/
def Instr.csra (i : Instr) : CsrField :=
  match i with
  | .nop => 0
  | .init => 0
  | .start _ => 0
  | .stop => 0
  | .isactive => 0
  | .actcfg _ => 0
  | .avail => 0
  | .space => 0
  | .get => 0
  | .flush => 0
  | .csrr a => BitVec.ofNat 12 a
  | .csrw a _ => BitVec.ofNat 12 a

/-- The write-data word of the command's transaction (R91: 0 but for CSRW). -/
def Instr.wdata (i : Instr) : Word :=
  match i with
  | .nop => 0
  | .init => 0
  | .start _ => 0
  | .stop => 0
  | .isactive => 0
  | .actcfg _ => 0
  | .avail => 0
  | .space => 0
  | .get => 0
  | .flush => 0
  | .csrr _ => 0
  | .csrw _ v => v

/-- The command word of a well-formed command (R81, R91). -/
def encode (i : Instr) : Word :=
  i.opcode.code ++ i.arg8 ++ 0#4 ++ i.csra

/-- The mask of a format (R82 to R84): the bits of the command word the format fixes. -/
def Format.mask (f : Format) : Word :=
  match f with
  | .n => 0xFFFFFFFF#32
  | .a => 0xFF00FFFF#32
  | .c => 0xFFFFF000#32

/-- The match of an opcode (R82 to R84): `OPC << 24`. -/
def Opcode.matchWord (op : Opcode) : Word := op.code ++ 0#24

/-! ## Assembler helpers (R92, R93) -/

/-- `FLAGS(sec, smp, ppin, opin)` of R92: a `CFG_FLAGS` value. -/
def Asm.flags (sec smp : Bool) (ppin opin : Pin) : Word :=
  0#8 ++ opin ++ ppin ++ 0#6 ++ BitVec.ofBool smp ++ BitVec.ofBool sec

/-- The pseudo-instruction `CFG i, off, per, dur, flags` of R93. -/
def Asm.cfg (i : Nat) (off per dur flags : Word) : List Instr :=
  [.csrw 0x010 off, .csrw 0x011 per, .csrw 0x012 dur, .csrw 0x013 flags, .actcfg i]

/-- The pseudo-instruction `CLRERR` of R93: clears `OVF`, `UNF`, `CFGERR` and `CMDERR`. -/
def Asm.clrErr : List Instr := [.csrw 0x000 0x78]

/-- The pseudo-instruction `CLROVF` of R93. -/
def Asm.clrOvf : List Instr := [.csrw 0x000 0x08]

/-- The pseudo-instruction `CLRUNF` of R93. -/
def Asm.clrUnf : List Instr := [.csrw 0x000 0x10]

/-- The pseudo-instruction `RDCLOCK` of R93. -/
def Asm.rdClock : List Instr := [.csrr 0x002]

/-- The pseudo-instruction `RESTART n` of R93. -/
def Asm.restart (n : Nat) : List Instr := [.stop, .start n]

/-! ## The opcode table's numbering of an instruction's bits -/

/-- The command word of an instruction numbered as spec/opcode_table.json numbers it: its low 32 bits. -/
def tableCmd (nbits w : Nat) : Word := BitVec.ofNat 32 (w % 2 ^ nbits)

/-- The write-data word of an instruction numbered as spec/opcode_table.json numbers it: the 32 bits after the
command word, 0 for the table's rows of 32 bits (log 9). -/
def tableWdata (nbits w : Nat) : Word := BitVec.ofNat 32 (w % 2 ^ nbits / 2 ^ 32)

/-- The command the decoder reads from an instruction whose bits are `w`, all bits above `nbits` zero. -/
def decodeTableWord (nbits w : Nat) : Option Instr :=
  match decode (tableCmd nbits w) (tableWdata nbits w) with
  | .instr i => some i
  | .reject _ => none

end Sys2Proof
end

