-- ==== Sys2Proof/Config.lean ====
section
/-! DEFINITION. What an implementation fixes (00_scope.md R5). The free values of the environment (R7), the other
constants of Config, stand in Machine/Environment.lean: they are applied to the state of the block.

The four OPEN parameters are plain data, so that a claim quantifies over every choice of them: State holds one
`Params` and no step writes it. DESIGN CHOICE (log 1), safe: no claim rests on the parameters of `State.reset`. -/

namespace Sys2Proof

/-- The OPEN parameters of 00_scope.md R5. -/
structure Params where
  /-- `CAPACITY`: number of ring slots, 2 to 65536 (decision D6). -/
  capacity : Nat
  /-- `N_ACT`: number of activity slots, 1 to 32 (decision D7). -/
  nAct : Nat
  /-- `ADC_WIDTH`: bits of one raw analog reading, 1 to 32 (decision D8). -/
  adcWidth : Nat
  /-- `TIMER_CAN_FAIL`: whether INIT and START may report a timer failure (decision D23). -/
  timerCanFail : Bool
deriving DecidableEq, Repr

/-- The ranges 00_scope.md R5 gives the parameters. -/
abbrev Params.Ok (p : Params) : Prop :=
  2 ≤ p.capacity ∧ p.capacity ≤ 65536 ∧ 1 ≤ p.nAct ∧ p.nAct ≤ 32 ∧ 1 ≤ p.adcWidth ∧ p.adcWidth ≤ 32

/-- The parameters 95_test_vectors.md uses unless a vector says otherwise. DESIGN CHOICE (log 1): `State.reset`
needs some parameters, and the spec leaves them open. -/
def Params.vectors : Params :=
  { capacity := 4, nAct := 4, adcWidth := 12, timerCanFail := false }

end Sys2Proof
end

