-- ==== Sys2Proof/Machine/State.lean ====
section
/-! DEFINITION. The state of the block (10_state.md R20), as plain data, and its value after reset (R47).

Beside the spec's own fields, State holds four fields of the MODEL: the OPEN parameters (`cfg`, log 1), the last
response on the host port (`resp`, log 7), what the host, the tick generator and the reset signal do next
(`agenda`, log 2) and the environment's answers (`env`, log 5). -/

namespace Sys2Proof.Machine

/-- The cause codes of 60_exceptions.md R242, `NONE` apart. -/
inductive Cause where
  | illegalOpcode
  | reservedField
  | csrUnmapped
  | csrReadOnly
  | notInit
  | badCount
  | unconfigured
  | badIndex
  | busy
  | zeroPeriod
  | durationGtPeriod
  | durationRange
  | badFlags
  | fatalState
  | timerFail
deriving DecidableEq, Repr

/-- A SampleRecord (20_memory.md R61) as its four 32-bit words, word 0 first. -/
structure SampleRecord where
  /-- Word 0: the pin id in bits 7:0. -/
  pinWord : Word
  /-- Word 1, read as two's complement. -/
  timestamp : Word
  /-- Word 2, read as two's complement. -/
  count : Word
  /-- Word 3, unsigned. -/
  sum : Word
deriving DecidableEq, Repr, Inhabited

/-- The slot store, the only memory of the block (20_memory.md R60): pairs of a slot index and the record last
written there, indices strictly rising. An index that is not listed holds `EMPTYSLOT` (10_state.md R32, log 8). -/
abbrev Memory := List (Nat × SampleRecord)

/-- The canonical form of the slot store: indices strictly rising, so no index is listed twice. No entry can equal
what an unlisted index holds, since `EMPTYSLOT` is no record. -/
abbrev Memory.wf (m : Memory) : Prop := m.Pairwise (fun x y => x.1 < y.1)

/-- One activity slot `A[i]` (10_state.md R34 to R36). -/
structure Activity where
  offset : Word
  period : Word
  duration : Word
  /-- 1 if the activity is secondary. -/
  sec : Bool
  /-- 1 for kind SAMPLER, 0 for kind TASK. -/
  smp : Bool
  ppin : Pin
  opin : Pin
  /-- 1 once a successful ACTCFG has written the slot. -/
  conf : Bool
  /-- 1 for `ON`, 0 for `OFF`. -/
  ison : Bool
  ts : Word
  cnt : Word
  sum : Word
deriving DecidableEq, Repr, Inhabited

/-- An activity slot after reset (10_state.md R47). -/
def Activity.reset : Activity :=
  { offset := 0, period := 0, duration := 0, sec := false, smp := false, ppin := 0, opin := 0,
    conf := false, ison := false, ts := 0, cnt := 0, sum := 0 }

/-- The response of one host command (30_encoding.md R80). -/
structure Response where
  ok : Bool
  r0 : Word
  r1 : Word
  r2 : Word
  r3 : Word
deriving DecidableEq, Repr

/-- What can happen next (00_scope.md R6, R8; 70_reset_and_hazards.md R270): a host command with its two words,
a tick, or the reset event. -/
inductive Event where
  | command (cmd wdata : Word)
  | tick
  | reset
deriving DecidableEq, Repr

/-- What has happened: an event that was taken, or the answer to a draw. With the state they started from, the
happenings of a run determine every step of it, so a list of them is the history of earlier steps of 00_scope.md R7
and 42_sampler.md R166 (log 6). -/
inductive Happening where
  | event (e : Event)
  | reading (pin : Pin) (v : Word)
  | absTime (v : Word)
  | tfail (b : Bool)
  | emptySlot (v : BitVec 128)
deriving DecidableEq, Repr

/-- The environment (00_scope.md R7): answers still to come, first answer first, one list per kind of draw, and
the history of earlier steps, newest first. Where a list has run out, the answer is a free value of Config
(log 5). -/
structure Env where
  adc : List Word
  absTime : List Word
  tfail : List Bool
  emptySlot : List (BitVec 128)
  history : List Happening
deriving DecidableEq, Repr

/-- No answer listed, nothing has happened. -/
def Env.initial : Env := { adc := [], absTime := [], tfail := [], emptySlot := [], history := [] }

/-- Why the machine stops. No instruction raises a fault. -/
inductive Fault where
  /-- Raised by `nextAction` alone, when the agenda is empty and `RUN = 0`: the run is complete and no agent has a
  step (60_exceptions.md R258). Safe: the block itself never stops (log 3). -/
  | runComplete
deriving DecidableEq, Repr

/-- Why the model has no answer. -/
inductive Refusal where
  /-- Raised by an arm of `exec` alone, for an instruction without a meaning. Safe. No arm raises it. -/
  | notModelled (mnemonic : String)
deriving DecidableEq, Repr

/-- The state of the block (10_state.md R20). -/
structure State where
  /-- `RUN` (R21). -/
  run : Bool
  /-- `TINIT` (R22). -/
  tinit : Bool
  /-- `FATAL` (R23). -/
  fatal : Bool
  /-- `OVF` (R24). -/
  ovf : Bool
  /-- `UNF` (R25). -/
  unf : Bool
  /-- `CFGERR` (R26). -/
  cfgErr : Bool
  /-- `CMDERR` (R27). -/
  cmdErr : Bool
  /-- `ERRCAUSE` (R28). -/
  errCause : BitVec 8
  /-- `CLOCK` (R29). -/
  clock : Word
  /-- `ACTN` (R30). -/
  actn : Nat
  /-- `RDPOS` (R31). -/
  rdPos : Nat
  /-- `WRPOS` (R31). -/
  wrPos : Nat
  /-- `SLOT[*]` (R32). -/
  slots : Memory
  /-- `CFG_OFFSET` (R33). -/
  cfgOffset : Word
  /-- `CFG_PERIOD` (R33). -/
  cfgPeriod : Word
  /-- `CFG_DURATION` (R33). -/
  cfgDuration : Word
  /-- `CFG_FLAGS` (R33, R43). -/
  cfgFlags : Word
  /-- `A[0 .. N_ACT-1]` (R34 to R36). -/
  acts : List Activity
  /-- The model's: the OPEN parameters (00_scope.md R5); no step writes them. -/
  cfg : Params
  /-- The model's: the last response on the host port (30_encoding.md R80), none before the first command. -/
  resp : Option Response
  /-- The model's: what happens next, first event first. -/
  agenda : List Event
  /-- The model's: the environment. -/
  env : Env
deriving DecidableEq, Repr

/-- The block right after reset (10_state.md R47, 70_reset_and_hazards.md R271), for given parameters, agenda and
environment. -/
def State.afterReset (cfg : Params) (agenda : List Event) (env : Env) : State :=
  { run := false, tinit := false, fatal := false,
    ovf := false, unf := false, cfgErr := false, cmdErr := false, errCause := 0,
    clock := 0, actn := 0, rdPos := 0, wrPos := 0, slots := [],
    cfgOffset := 0, cfgPeriod := 0, cfgDuration := 0, cfgFlags := 0,
    acts := List.replicate cfg.nAct Activity.reset,
    cfg := cfg, resp := none, agenda := agenda, env := env }

/-- The machine right after reset. The parameters, the empty agenda and the environment are the model's choice
(DESIGN CHOICE, logs 1, 2, 5). -/
def State.reset : State := State.afterReset Params.vectors [] Env.initial

end Sys2Proof.Machine
end

