-- ==== Sys2Proof/Machine/Environment.lean ====
section
/-! DEFINITION. The free values of the environment (00_scope.md R7) and the context a draw is made in.

They are constants of Config WITHOUT A BODY: nothing in Lean can evaluate one or prove a value of it. -/

namespace Sys2Proof.Machine

/-- The `ctx` of a draw (00_scope.md R7): the state of the block at the instant of the draw, and the history of
earlier steps. -/
structure DrawCtx where
  /-- The state of the block. Its `agenda` is empty and its `env` initial: an answer depends on nothing that is
  still to come. -/
  block : State
  /-- Every event taken and every draw answered before this draw, newest first. -/
  history : List Happening
deriving DecidableEq, Repr

/-- The `ctx` of a draw within a tick (42_sampler.md R166). -/
structure TickCtx extends DrawCtx where
  /-- The current tick's `now`. -/
  now : Word
  /-- The activity slot that draws. -/
  slot : Nat
  /-- The pass of the tick: true for the secondaries' pass. -/
  secondary : Bool
  /-- The `OUT` vector at the instant of the draw. -/
  out : Word
deriving DecidableEq, Repr

end Sys2Proof.Machine

namespace Sys2Proof

/-- FREE VALUE (42_sampler.md R166): the raw reading `readAnalog(pin)`, before it is cut to `ADC_WIDTH` bits. -/
opaque Config.adcAnswer : Pin → Machine.TickCtx → Word

/-- FREE VALUE (42_sampler.md R167): `currentTimeMs()`; not necessarily monotonic. -/
opaque Config.absTimeAnswer : Machine.TickCtx → Word

/-- FREE VALUE (00_scope.md R7): whether the vendor timer fails at this draw. -/
opaque Config.tfailAnswer : Machine.DrawCtx → Bool

/-- FREE VALUE (40_ringbuffer.md R116): the 128 bits a GET of a never-written slot returns. Its `ctx` is the model's
choice (DESIGN CHOICE, log 18). -/
opaque Config.emptySlotAnswer : Machine.DrawCtx → BitVec 128

end Sys2Proof
end

