-- ==== Sys2Proof/Machine/Ops.lean ====
section
/-! DEFINITION. The operations every meaning is built from: the slot store, the activity slots, the host port, what
a refusal and a timer failure do (60_exceptions.md R241, R247), the ring buffer (40_ringbuffer.md R110 to R116) and
the draws of the environment (00_scope.md R7). -/

namespace Sys2Proof.Machine

/-- What a step or a meaning answers. -/
abbrev StepOutcome := Host.Outcome State Fault Refusal

/-! ## Records (20_memory.md R61) -/

/-- A record as its 128 bits: `{word3, word2, word1, word0}`. -/
def SampleRecord.bits (r : SampleRecord) : BitVec 128 := r.sum ++ r.count ++ r.timestamp ++ r.pinWord

/-- The record of 128 bits. -/
def SampleRecord.ofBits (b : BitVec 128) : SampleRecord :=
  { pinWord := b.extractLsb' 0 32, timestamp := b.extractLsb' 32 32,
    count := b.extractLsb' 64 32, sum := b.extractLsb' 96 32 }

/-! ## The slot store (10_state.md R32) -/

/-- `SlotRead(k)`: the record in slot `k`, or none for `EMPTYSLOT`. -/
def Memory.read (k : Nat) (m : Memory) : Option SampleRecord :=
  match m with
  | [] => none
  | (j, r) :: rest => if k = j then some r else Memory.read k rest

/-- `SlotWrite(k, rec)`, keeping the indices strictly rising. -/
def Memory.write (k : Nat) (rec : SampleRecord) (m : Memory) : Memory :=
  match m with
  | [] => [(k, rec)]
  | (j, r) :: rest =>
    if k < j then (k, rec) :: (j, r) :: rest
    else if k = j then (k, rec) :: rest
    else (j, r) :: Memory.write k rec rest

/-! ## Activity slots (10_state.md R34) -/

/-- `A[i]`. No reachable state reads an index outside the array (log 10). -/
def State.act (s : State) (i : Nat) : Activity := s.acts.getD i Activity.reset

/-- `A[i] <- a`. -/
def State.setAct (s : State) (i : Nat) (a : Activity) : State := { s with acts := s.acts.set i a }

/-- `OUT` (10_state.md R42): bit `i` is `A[i].ISON` for every `i < N_ACT`, the other bits 0. -/
def State.out (s : State) : Word :=
  (BitVec.ofBoolListLE ((s.acts.take s.cfg.nAct).map Activity.ison)).setWidth 32

/-- `for i in 0 .. n-1: f i`, in increasing `i` (00_scope.md R10). -/
def forBelow (n : Nat) (f : Nat → State → State) (s : State) : State :=
  match n with
  | 0 => s
  | k + 1 => f k (forBelow k f s)

/-! ## The host port (30_encoding.md R80) -/

/-- `respond(1, r0, r1, r2, r3)`. -/
def State.respond (s : State) (r0 r1 r2 r3 : Word) : State :=
  { s with resp := some { ok := true, r0 := r0, r1 := r1, r2 := r2, r3 := r3 } }

/-- `respond(0, 0, 0, 0, 0)`. -/
def State.respondRefused (s : State) : State :=
  { s with resp := some { ok := false, r0 := 0, r1 := 0, r2 := 0, r3 := 0 } }

/-! ## Refusal and failure (60_exceptions.md)

The block has no trap (R240): these two are its whole error mechanism, and there is no return from either. -/

/-- The code of a cause (R242). -/
def Cause.code (c : Cause) : BitVec 8 :=
  match c with
  | .illegalOpcode => 0x01
  | .reservedField => 0x02
  | .csrUnmapped => 0x03
  | .csrReadOnly => 0x04
  | .notInit => 0x05
  | .badCount => 0x06
  | .unconfigured => 0x07
  | .badIndex => 0x08
  | .busy => 0x09
  | .zeroPeriod => 0x0A
  | .durationGtPeriod => 0x0B
  | .durationRange => 0x0C
  | .badFlags => 0x0D
  | .fatalState => 0x0E
  | .timerFail => 0x0F

/-- Whether a cause is a configuration-value cause (R243). -/
def Cause.isConfig (c : Cause) : Bool :=
  match c with
  | .illegalOpcode => false
  | .reservedField => false
  | .csrUnmapped => false
  | .csrReadOnly => false
  | .notInit => false
  | .badCount => false
  | .unconfigured => false
  | .badIndex => false
  | .busy => false
  | .zeroPeriod => true
  | .durationGtPeriod => true
  | .durationRange => true
  | .badFlags => true
  | .fatalState => false
  | .timerFail => false

/-- The cause of a decode error (30_encoding.md R88, R89). -/
def causeOfDecode (e : DecodeError) : Cause :=
  match e with
  | .illegalOpcode => .illegalOpcode
  | .reservedField => .reservedField

/-- The error report of a cause: `ERRCAUSE` and the flag of R243. -/
def State.report (s : State) (c : Cause) : State :=
  { s with
    errCause := c.code
    cfgErr := s.cfgErr || c.isConfig
    cmdErr := s.cmdErr || !c.isConfig }

/-- `Refuse(cause)` (R241): the error report and the refused response, and nothing else. -/
def State.refuse (s : State) (c : Cause) : State := (s.report c).respondRefused

/-- `Fail(TIMER_FAIL)` (R247): it keeps what the command did before. -/
def State.failTimer (s : State) : State :=
  { (s.report .timerFail).respondRefused with fatal := true, run := false }

/-! ## The ring buffer (40_ringbuffer.md) -/

/-- `Available()` (R110). -/
def State.available (s : State) : Nat :=
  if s.rdPos ≤ s.wrPos then s.wrPos - s.rdPos else s.cfg.capacity + s.wrPos - s.rdPos

/-- `Space()` (R111). -/
def State.space (s : State) : Nat := s.cfg.capacity - 1 - s.available

/-- `RbPut(rec)` (R114): the write happens on a full buffer too, and `OVF` reports it (conflict C1). -/
def State.rbPut (s : State) (rec : SampleRecord) : State :=
  { s with
    ovf := s.ovf || s.space == 0
    slots := s.slots.write s.wrPos rec
    wrPos := (s.wrPos + 1) % s.cfg.capacity }

/-! ## Draws of the environment (00_scope.md R7)

A draw takes the next listed answer, or where none is listed a free value of Config, and enters the history. -/

/-- The `ctx` of a draw made now (R7). -/
def State.drawCtx (s : State) : DrawCtx :=
  { block := { s with agenda := [], env := Env.initial }, history := s.env.history }

/-- The `ctx` of a draw that slot `i` makes now (42_sampler.md R166). -/
def State.tickCtx (s : State) (i : Nat) : TickCtx :=
  { s.drawCtx with now := s.clock, slot := i, secondary := (s.act i).sec, out := s.out }

/-- The answer to `draw ADC(A[i].PPIN)`: a reading of `ADC_WIDTH` bits (R166, log 11). -/
def State.adcAnswer (s : State) (i : Nat) : Word :=
  BitVec.ofNat 32 (((s.env.adc.head?).getD (Config.adcAnswer (s.act i).ppin (s.tickCtx i))).toNat % 2 ^ s.cfg.adcWidth)

/-- The state after the draw of `ADC` by slot `i`. -/
def State.afterAdc (s : State) (i : Nat) : State :=
  { s with env := { s.env with
      adc := s.env.adc.tail
      history := .reading (s.act i).ppin (s.adcAnswer i) :: s.env.history } }

/-- The answer to `draw ABS_TIME()` by slot `i` (R167). -/
def State.absTimeAnswer (s : State) (i : Nat) : Word :=
  (s.env.absTime.head?).getD (Config.absTimeAnswer (s.tickCtx i))

/-- The state after the draw of `ABS_TIME` by slot `i`. -/
def State.afterAbsTime (s : State) (i : Nat) : State :=
  { s with env := { s.env with
      absTime := s.env.absTime.tail
      history := .absTime (s.absTimeAnswer i) :: s.env.history } }

/-- The answer to `draw TFAIL()`: always false when `TIMER_CAN_FAIL = false` (00_scope.md R7). -/
def State.tfailAnswer (s : State) : Bool :=
  s.cfg.timerCanFail && (s.env.tfail.head?).getD (Config.tfailAnswer s.drawCtx)

/-- The state after a draw of `TFAIL`. -/
def State.afterTfail (s : State) : State :=
  { s with env := { s.env with
      tfail := s.env.tfail.tail
      history := .tfail s.tfailAnswer :: s.env.history } }

/-- The answer to the draw of a never-written slot: any 128 bits (40_ringbuffer.md R116). That it depends on a `ctx`,
and on which, is the model's choice: R7 gives one to the other three draws only (DESIGN CHOICE, log 18). -/
def State.emptySlotAnswer (s : State) : BitVec 128 :=
  (s.env.emptySlot.head?).getD (Config.emptySlotAnswer s.drawCtx)

/-- The state after a draw of a never-written slot. -/
def State.afterEmptySlot (s : State) : State :=
  { s with env := { s.env with
      emptySlot := s.env.emptySlot.tail
      history := .emptySlot s.emptySlotAnswer :: s.env.history } }

/-- The first line of `RbGet()` (R116): `UNF` if the buffer is empty. -/
def State.rbGetCheck (s : State) : State := { s with unf := s.unf || s.available == 0 }

/-- The record `RbGet()` returns (R116): the slot at `RDPOS`, or a draw where no put has written it; the draw
is made with `UNF` already set (log 18). -/
def State.rbGetRecord (s : State) : SampleRecord :=
  match s.slots.read s.rdPos with
  | some rec => rec
  | none => SampleRecord.ofBits s.rbGetCheck.emptySlotAnswer

/-- The state after `RbGet()`'s check and its draw, if the slot at `RDPOS` is `EMPTYSLOT`. -/
def State.rbGetDraw (s : State) : State :=
  match s.slots.read s.rdPos with
  | some _ => s.rbGetCheck
  | none => s.rbGetCheck.afterEmptySlot

/-- The state after `RbGet()` (R116): `UNF` if the buffer was empty, the index advanced. -/
def State.afterRbGet (s : State) : State :=
  { s.rbGetDraw with rdPos := (s.rdPos + 1) % s.cfg.capacity }

/-! ## Reset (70_reset_and_hazards.md R270) -/

/-- The reset event: every state field of 10_state.md R20 takes its value of R47. What is not the block's state
(the parameters, what the host does next, the environment) stays; no response is on the port (log 12). -/
def State.resetEvent (s : State) : State := State.afterReset s.cfg s.agenda s.env

end Sys2Proof.Machine
end

