-- ==== Sys2Proof/Machine/Activity.lean ====
section
/-! DEFINITION. The activity array: the periodic-task state machine (41_periodic_task.md), the sampler
(42_sampler.md) and one whole tick of the dispatcher (43_dispatcher.md R181). No host command reaches these
operations but through START, STOP and a tick. -/

namespace Sys2Proof.Machine

/-! ## Sampler callbacks (42_sampler.md) -/

/-- `A[i].ISON <- b`. -/
def State.setIson (s : State) (i : Nat) (b : Bool) : State := s.setAct i { s.act i with ison := b }

/-- `A[i].TS <- 0; A[i].CNT <- 0; A[i].SUM <- 0`. -/
def State.clearAccumulators (s : State) (i : Nat) : State :=
  s.setAct i { s.act i with ts := 0, cnt := 0, sum := 0 }

/-- `OnCallback(i)` (R161). -/
def State.onCallback (s : State) (i : Nat) : State :=
  if (s.act i).smp then s.clearAccumulators i else s

/-- The record a sampler's window produces (R164, 20_memory.md R61). -/
def Activity.record (a : Activity) : SampleRecord :=
  { pinWord := a.opin.setWidth 32, timestamp := a.ts, count := a.cnt, sum := a.sum }

/-- `OffCallback(i)` (R164): the only write path into the ring buffer. -/
def State.offCallback (s : State) (i : Nat) : State :=
  if (s.act i).smp then s.rbPut (s.act i).record else s

/-- `SamplerStart(i)` (R163). -/
def State.samplerStart (s : State) (i : Nat) : State := s.clearAccumulators i

/-- The timestamp part of `Sample(i)` (R162): a draw only while `TS = 0`, so an answer of 0 does not stick (R168). -/
def State.sampleTime (s : State) (i : Nat) : State :=
  if (s.act i).ts = 0 then (s.afterAbsTime i).setAct i { s.act i with ts := s.absTimeAnswer i } else s

/-- The count part of `Sample(i)` (R162, R169). -/
def State.sampleCount (s : State) (i : Nat) : State :=
  s.setAct i { s.act i with cnt := (s.act i).cnt + 1 }

/-- The reading part of `Sample(i)` (R162, R169). -/
def State.sampleReading (s : State) (i : Nat) : State :=
  (s.afterAdc i).setAct i { s.act i with sum := (s.act i).sum + s.adcAnswer i }

/-- `Sample(i)` (R162): timestamp, then count, then reading. -/
def State.sample (s : State) (i : Nat) : State := ((s.sampleTime i).sampleCount i).sampleReading i

/-! ## The periodic-task state machine (41_periodic_task.md) -/

/-- `TaskStart(i)` (R141). -/
def State.taskStart (s : State) (i : Nat) : State :=
  if (s.act i).smp then (s.setIson i false).samplerStart i else s.setIson i false

/-- `TaskStop(i)` (R142): no callback runs. -/
def State.taskStop (s : State) (i : Nat) : State := s.setIson i false

/-- `e` of R140, for `now >= OFFSET`. `PERIOD >= 1` in every configured slot (log 10). -/
def Activity.elapsed (a : Activity) (now : Word) : Nat :=
  (now.toNat - a.offset.toNat) % a.period.toNat

/-- `A[i].ISON <- 0; OffCallback(i)`. -/
def State.closeWindow (s : State) (i : Nat) : State := (s.setIson i false).offCallback i

/-- `A[i].ISON <- 1; OnCallback(i)`. -/
def State.openWindow (s : State) (i : Nat) : State := (s.setIson i true).onCallback i

/-- Step (1) of `TaskStep` (R143, R145): close a window that has ended. -/
def State.closeEnded (s : State) (i e d : Nat) : State :=
  if (s.act i).ison = true ∧ (d ≤ e ∨ e = 0) then s.closeWindow i else s

/-- Step (2) of `TaskStep` (R143, R146): open at the start of a period. -/
def State.openNew (s : State) (i e : Nat) : State :=
  if (s.act i).ison = false ∧ e = 0 then s.openWindow i else s

/-- Step (3) of `TaskStep` (R143, R147): close an empty window at once. -/
def State.closeEmpty (s : State) (i e d : Nat) : State :=
  if (s.act i).ison = true ∧ d ≤ e then s.closeWindow i else s

/-- The three transitions of `TaskStep` (R143), for given `e` and `D`. -/
def State.transitions (s : State) (i e d : Nat) : State :=
  ((s.closeEnded i e d).openNew i e).closeEmpty i e d

/-- `TaskStep(i, now)` (R143): nothing before the offset (R144). -/
def State.taskStep (s : State) (i : Nat) (now : Word) : State :=
  if now.toNat < (s.act i).offset.toNat then s
  else s.transitions i ((s.act i).elapsed now) (s.act i).duration.toNat

/-- The sampling part of `ActUpdate` (R149). -/
def State.sampleIfOn (s : State) (i : Nat) : State :=
  if (s.act i).smp = true ∧ (s.act i).ison = true then s.sample i else s

/-- `ActUpdate(i, now)` (R149): the transitions, then the sample. -/
def State.actUpdate (s : State) (i : Nat) (now : Word) : State := (s.taskStep i now).sampleIfOn i

/-! ## The tick (43_dispatcher.md) -/

/-- One pass of a tick (R181, R182): the slots of the set whose class is `sec`, in increasing index. -/
def State.pass (s : State) (n : Nat) (sec : Bool) (now : Word) : State :=
  forBelow n (fun i t => if (t.act i).sec = sec then t.actUpdate i now else t) s

/-- `CLOCK <- CLOCK +_32 1` (R181). -/
def State.advanceClock (s : State) : State := { s with clock := s.clock + 1 }

/-- `TICK` (R181): the clock, then the primaries, then the secondaries. It has no response. -/
def State.tick (s : State) : State :=
  ((s.advanceClock).pass s.actn false (s.clock + 1)).pass s.actn true (s.clock + 1)

end Sys2Proof.Machine
end

