-- ==== Sys2Proof/Machine/Agents.lean ====
section
/-! DEFINITION. What happens next: the host's next command, a tick, the reset event, or nothing
(00_scope.md R8, 20_memory.md R66, 60_exceptions.md R258). -/

namespace Sys2Proof.Machine

/-- What the next step is: a decoded command to run in a state, or a step already settled. -/
inductive Action where
  | run (i : Instr) (s : State)
  | settled (o : StepOutcome)

/-- A command taken from the port (30_encoding.md R87): a word that is no command is refused (R88, R89). -/
def State.takeCommand (s : State) (cmd wdata : Word) : Action :=
  match decode cmd wdata with
  | .instr i => .run i s
  | .reject e => .settled (.next (s.refuse (causeOfDecode e)))

/-- An event is taken: it leaves the agenda, of which `rest` is left, and enters the history. -/
def State.took (s : State) (e : Event) (rest : List Event) : State :=
  { s with agenda := rest, env := { s.env with history := .event e :: s.env.history } }

/-- A tick is taken, with `rest` left on the agenda. -/
def State.takeTick (s : State) (rest : List Event) : State := (s.took .tick rest).tick

/-- The next step of a state. A tick on the agenda that is not enabled (43_dispatcher.md R180) is dropped without
effect, and is no step of the history (log 4). With nothing left on the agenda the TICK agent alone may step, while
`RUN = 1`; with `RUN = 0` no agent has a step and the run is complete (60_exceptions.md R258, log 3). -/
def State.nextAction (s : State) : Action :=
  match s.agenda with
  | [] => if s.run then .settled (.next (s.takeTick [])) else .settled (.fault .runComplete)
  | .command cmd wdata :: rest => (s.took (.command cmd wdata) rest).takeCommand cmd wdata
  | .tick :: rest => .settled (.next (if s.run then s.takeTick rest else { s with agenda := rest }))
  | .reset :: rest => .settled (.next (s.took .reset rest).resetEvent)

end Sys2Proof.Machine
end

