-- ==== Sys2Proof/Machine/Flags.lean ====
section
/-! DEFINITION. The words software reads and writes as bits: STATUS (10_state.md R40, 44_csr.md R223), the
`CFG_FLAGS` layout (R43) with the checks ACTCFG makes of it, and the `ACT<i>_FLAGS` and `ACT<i>_STATE` words
(R44, R45). -/

namespace Sys2Proof.Machine

/-- The word whose low bits are the given ones, bit 0 first, all others 0. -/
def wordOfBits (bs : List Bool) : Word := (BitVec.ofBoolListLE bs).setWidth 32

/-- `STATUS` as read (10_state.md R40). -/
def State.statusWord (s : State) : Word :=
  wordOfBits [s.run, s.tinit, s.fatal, s.ovf, s.unf, s.cfgErr, s.cmdErr]

/-- `WriteStatus(v)` (44_csr.md R223): a 1 in bit 3, 4, 5 or 6 clears that flag; every other bit is ignored. -/
def State.writeStatus (s : State) (v : Word) : State :=
  { s with
    ovf := s.ovf && !v.getLsbD 3
    unf := s.unf && !v.getLsbD 4
    cfgErr := s.cfgErr && !v.getLsbD 5
    cmdErr := s.cmdErr && !v.getLsbD 6 }

/-- `CFG_FLAGS[0]` (10_state.md R43). -/
def flagsSec (f : Word) : Bool := f.getLsbD 0

/-- `CFG_FLAGS[1]` (10_state.md R43). -/
def flagsSmp (f : Word) : Bool := f.getLsbD 1

/-- `CFG_FLAGS[15:8]` (10_state.md R43). -/
def flagsPpin (f : Word) : Pin := f.extractLsb' 8 8

/-- `CFG_FLAGS[23:16]` (10_state.md R43). -/
def flagsOpin (f : Word) : Pin := f.extractLsb' 16 8

/-- Whether a reserved bit of `CFG_FLAGS` is set (10_state.md R43, 43_dispatcher.md R189). -/
def flagsBad (f : Word) : Bool := f.extractLsb' 2 6 != 0 || f.extractLsb' 24 8 != 0

/-- `ACT<i>_FLAGS` (10_state.md R44): the layout of R43, which the assembler's `FLAGS` of R92 builds. -/
def Activity.flagsWord (a : Activity) : Word := Asm.flags a.sec a.smp a.ppin a.opin

/-- `ACT<i>_STATE` (10_state.md R45): `ISON`, `CONF` and the computed `INSET`. -/
def Activity.stateWord (a : Activity) (inSet : Bool) : Word := wordOfBits [a.ison, a.conf, inSet]

end Sys2Proof.Machine
end

