-- ==== Sys2Proof/Machine/Operands.lean ====
section
/-! DEFINITION. The CSR map (10_state.md R39 to R46): which register a CSR address names, what it reads as and
whether a CSRW may write it. -/

namespace Sys2Proof.Machine

/-- The eight registers of an activity slot (10_state.md R44). -/
inductive ActReg where
  | offset | period | duration | flags | state | ts | cnt | sum
deriving DecidableEq, Repr

/-- The registers of the CSR map (10_state.md R39). -/
inductive Csr where
  | status
  | errCause
  | clock
  | actn
  | rdPos
  | wrPos
  | cap
  | nact
  | out
  | cfgOffset
  | cfgPeriod
  | cfgDuration
  | cfgFlags
  | act (i : Nat) (r : ActReg)
deriving DecidableEq, Repr

/-- The access kinds of 10_state.md R46. `STATUS` holds read-only bits and write-one-to-clear bits (R40). -/
inductive Access where
  | ro
  | rw
  | status
deriving DecidableEq, Repr

/-- The register `k` of a slot's eight (10_state.md R44); `k` is below 8 at every use. -/
def ActReg.ofIndex (k : Nat) : ActReg :=
  if k = 0 then .offset
  else if k = 1 then .period
  else if k = 2 then .duration
  else if k = 3 then .flags
  else if k = 4 then .state
  else if k = 5 then .ts
  else if k = 6 then .cnt
  else .sum

/-- The register at a CSR address, for `N_ACT = nAct`; none where the address is unmapped (10_state.md R39, R44). -/
def csrAt (nAct a : Nat) : Option Csr :=
  if a = 0x000 then some .status
  else if a = 0x001 then some .errCause
  else if a = 0x002 then some .clock
  else if a = 0x003 then some .actn
  else if a = 0x004 then some .rdPos
  else if a = 0x005 then some .wrPos
  else if a = 0x006 then some .cap
  else if a = 0x007 then some .nact
  else if a = 0x008 then some .out
  else if a = 0x010 then some .cfgOffset
  else if a = 0x011 then some .cfgPeriod
  else if a = 0x012 then some .cfgDuration
  else if a = 0x013 then some .cfgFlags
  else if 0x100 ≤ a ∧ a < 0x100 + 8 * nAct then some (.act ((a - 0x100) / 8) (.ofIndex ((a - 0x100) % 8)))
  else none

/-- The access kind of a register (10_state.md R39 to R44). -/
def Csr.access (c : Csr) : Access :=
  match c with
  | .status => .status
  | .errCause => .ro
  | .clock => .ro
  | .actn => .ro
  | .rdPos => .ro
  | .wrPos => .ro
  | .cap => .ro
  | .nact => .ro
  | .out => .ro
  | .cfgOffset => .rw
  | .cfgPeriod => .rw
  | .cfgDuration => .rw
  | .cfgFlags => .rw
  | .act _ _ => .ro

/-- What a slot's register reads as (10_state.md R44, R45). -/
def State.readActReg (s : State) (i : Nat) (r : ActReg) : Word :=
  match r with
  | .offset => (s.act i).offset
  | .period => (s.act i).period
  | .duration => (s.act i).duration
  | .flags => (s.act i).flagsWord
  | .state => (s.act i).stateWord (decide (i < s.actn))
  | .ts => (s.act i).ts
  | .cnt => (s.act i).cnt
  | .sum => (s.act i).sum

/-- What a register reads as (10_state.md R39 to R45). No read has a side effect (20_memory.md R65). -/
def State.readCsr (s : State) (c : Csr) : Word :=
  match c with
  | .status => s.statusWord
  | .errCause => s.errCause.setWidth 32
  | .clock => s.clock
  | .actn => BitVec.ofNat 32 s.actn
  | .rdPos => BitVec.ofNat 32 s.rdPos
  | .wrPos => BitVec.ofNat 32 s.wrPos
  | .cap => BitVec.ofNat 32 s.cfg.capacity
  | .nact => BitVec.ofNat 32 s.cfg.nAct
  | .out => s.out
  | .cfgOffset => s.cfgOffset
  | .cfgPeriod => s.cfgPeriod
  | .cfgDuration => s.cfgDuration
  | .cfgFlags => s.cfgFlags
  | .act i r => s.readActReg i r

/-- What an accepted CSRW does to a register: `STATUS` by 44_csr.md R223, the staging registers by R224. The
read-only registers, which no accepted CSRW names, are unchanged (10_state.md R41, R44). -/
def State.writeCsr (s : State) (c : Csr) (v : Word) : State :=
  match c with
  | .status => s.writeStatus v
  | .errCause => s
  | .clock => s
  | .actn => s
  | .rdPos => s
  | .wrPos => s
  | .cap => s
  | .nact => s
  | .out => s
  | .cfgOffset => { s with cfgOffset := v }
  | .cfgPeriod => { s with cfgPeriod := v }
  | .cfgDuration => { s with cfgDuration := v }
  | .cfgFlags => { s with cfgFlags := v }
  | .act _ _ => s

end Sys2Proof.Machine
end

