-- ==== Sys2Proof/Machine/CsrAccess.lean ====
section
/-! DEFINITION. NOP and the CSR commands (44_csr.md R220 to R224). -/

namespace Sys2Proof.Machine

/-- NOP (R220): nothing but the response. -/
def execNop (s : State) : StepOutcome := .next (s.respond 0 0 0 0)

/-- CSRR a (R221): the value of a mapped register; no side effect. -/
def execCsrr (a : Nat) (s : State) : StepOutcome :=
  match csrAt s.cfg.nAct a with
  | none => .next (s.refuse .csrUnmapped)
  | some c => .next (s.respond (s.readCsr c) 0 0 0)

/-- CSRW a, v (R222): STATUS and the staging registers; every other mapped register is read-only. -/
def execCsrw (a : Nat) (v : Word) (s : State) : StepOutcome :=
  match csrAt s.cfg.nAct a with
  | none => .next (s.refuse .csrUnmapped)
  | some c =>
    match c.access with
    | .ro => .next (s.refuse .csrReadOnly)
    | .rw => .next ((s.writeCsr c v).respond 0 0 0 0)
    | .status => .next ((s.writeCsr c v).respond 0 0 0 0)

end Sys2Proof.Machine
end

