-- ==== Sys2Proof/Machine/RingBuffer.lean ====
section
/-! DEFINITION. The consumer's commands on the ring buffer (40_ringbuffer.md R118 to R121). -/

namespace Sys2Proof.Machine

/-- AVAIL (R118): `R0` is the number of unread records. -/
def execAvail (s : State) : StepOutcome := .next (s.respond (BitVec.ofNat 32 s.available) 0 0 0)

/-- SPACE (R119): `R0` is the number of usable free slots. -/
def execSpace (s : State) : StepOutcome := .next (s.respond (BitVec.ofNat 32 s.space) 0 0 0)

/-- GET (R120): removes one record and returns its four words; an empty buffer is no refusal. -/
def execGet (s : State) : StepOutcome :=
  .next (s.afterRbGet.respond s.rbGetRecord.pinWord s.rbGetRecord.timestamp s.rbGetRecord.count s.rbGetRecord.sum)

/-- FLUSH (R121): only the consumer's own index is written. -/
def execFlush (s : State) : StepOutcome := .next (({ s with rdPos := s.wrPos }).respond 0 0 0 0)

end Sys2Proof.Machine
end

