-- ==== Sys2Proof/Machine/Timer.lean ====
section
/-! DEFINITION. The timer contract and the configuration of a slot: INIT, START, STOP, ISACTIVE and ACTCFG
(43_dispatcher.md R185 to R189). The checks stand in the order of 60_exceptions.md R244. -/

namespace Sys2Proof.Machine

/-- INIT once it is neither refused nor without effect (R185): the draw, and the failure or the initialisation. -/
def State.initTimer (s : State) : State :=
  if s.tfailAnswer then s.afterTfail.failTimer
  else ({ s.afterTfail with tinit := true }).respond 0 0 0 0

/-- INIT (R185). A second INIT has no effect and makes no draw. -/
def execInit (s : State) : StepOutcome :=
  if s.fatal then .next (s.refuse .fatalState)
  else if s.tinit then .next (s.respond 0 0 0 0)
  else .next s.initTimer

/-- `StopSequence()` (R187): the interrupt first, then every slot of the set, then the set. -/
def State.stopSequence (s : State) : State :=
  { forBelow s.actn (fun i t => t.taskStop i) { s with run := false } with actn := 0 }

/-- What START does before its draw (R186): stop the prior run, record the set, start every activity, zero the
clock. -/
def State.beginRun (s : State) (n : Nat) : State :=
  { forBelow n (fun i t => t.taskStart i) { s.stopSequence with actn := n } with clock := 0 }

/-- START's draw and what follows it (R186); a failure keeps what was done before (60_exceptions.md R247). -/
def State.enableTicks (s : State) : State :=
  if s.tfailAnswer then s.afterTfail.failTimer
  else ({ s.afterTfail with run := true }).respond 0 0 0 0

/-- Whether every slot below `n` is configured. -/
def State.allConfigured (s : State) (n : Nat) : Bool := (List.range n).all (fun i => (s.act i).conf)

/-- START n (R186). A refused START changes nothing, so a prior run keeps running. -/
def execStart (n : Nat) (s : State) : StepOutcome :=
  if s.fatal then .next (s.refuse .fatalState)
  else if !s.tinit then .next (s.refuse .notInit)
  else if s.cfg.nAct < n then .next (s.refuse .badCount)
  else if !s.allConfigured n then .next (s.refuse .unconfigured)
  else .next (s.beginRun n).enableTicks

/-- STOP (R187): allowed in every state. -/
def execStop (s : State) : StepOutcome := .next (s.stopSequence.respond 0 0 0 0)

/-- ISACTIVE (R188): `R0` is `RUN`. -/
def execIsactive (s : State) : StepOutcome := .next (s.respond (wordOfBits [s.run]) 0 0 0)

/-- The slot a successful ACTCFG leaves (R189), from the staging registers. -/
def State.stagedActivity (s : State) : Activity :=
  { offset := s.cfgOffset, period := s.cfgPeriod, duration := s.cfgDuration,
    sec := flagsSec s.cfgFlags, smp := flagsSmp s.cfgFlags,
    ppin := flagsPpin s.cfgFlags, opin := flagsOpin s.cfgFlags,
    conf := true, ison := false, ts := 0, cnt := 0, sum := 0 }

/-- ACTCFG i (R189). -/
def execActcfg (i : Nat) (s : State) : StepOutcome :=
  if s.cfg.nAct ≤ i then .next (s.refuse .badIndex)
  else if s.run then .next (s.refuse .busy)
  else if flagsBad s.cfgFlags then .next (s.refuse .badFlags)
  else if s.cfgPeriod.toNat = 0 then .next (s.refuse .zeroPeriod)
  else if s.cfgPeriod.toNat < s.cfgDuration.toNat then .next (s.refuse .durationGtPeriod)
  else if 0x7FFFFFFF < s.cfgDuration.toNat then .next (s.refuse .durationRange)
  else .next ((s.setAct i s.stagedActivity).respond 0 0 0 0)

end Sys2Proof.Machine
end

