-- ==== Sys2Proof/Machine/Dispatch.lean ====
section
/-! DEFINITION. The dispatch of a decoded host command to its meaning, one arm per constructor of Instr. -/

namespace Sys2Proof.Machine

def exec (i : Instr) (s : State) : Host.Outcome State Fault Refusal :=
  match i with
  | .nop => Sys2Proof.Machine.execNop s
  | .init => Sys2Proof.Machine.execInit s
  | .start n => Sys2Proof.Machine.execStart n s
  | .stop => Sys2Proof.Machine.execStop s
  | .isactive => Sys2Proof.Machine.execIsactive s
  | .actcfg k => Sys2Proof.Machine.execActcfg k s
  | .avail => Sys2Proof.Machine.execAvail s
  | .space => Sys2Proof.Machine.execSpace s
  | .get => Sys2Proof.Machine.execGet s
  | .flush => Sys2Proof.Machine.execFlush s
  | .csrr a => Sys2Proof.Machine.execCsrr a s
  | .csrw a v => Sys2Proof.Machine.execCsrw a v s

end Sys2Proof.Machine
end

