-- ==== Sys2Proof/Machine/Step.lean ====
section
/-! DEFINITION. One step of the block: one host command, one whole tick or one reset (20_memory.md R66). -/

namespace Sys2Proof.Machine

/-- One step: the next action, run by `exec` where it is a decoded command. -/
def step (s : State) : Host.Outcome State Fault Refusal :=
  match s.nextAction with
  | .run i t => exec i t
  | .settled o => o

/-- The state with the instruction whose bits are `w` put first on the agenda, so that the next step takes it from
the command port (log 9). -/
def State.withFetchWord (s : State) (nbits w : Nat) : State :=
  { s with agenda := .command (tableCmd nbits w) (tableWdata nbits w) :: s.agenda }

end Sys2Proof.Machine
end

