-- ==== Sys2Proof/Safety.lean ====
section
/-! DEFINITION. The terms in which claims speak of the block: the invariants of a state, the unread records of the
ring as a queue, the phase of a periodic task, and runs. -/

namespace Sys2Proof.Machine

/-! ## Invariants of a state -/

/-- The form of a state: parameters in range (00_scope.md R5), one slot per activity, indices in range
(10_state.md R30, R31), the slot store canonical and within `CAPACITY` (10_state.md R32). -/
structure State.Shape (s : State) : Prop where
  params : s.cfg.Ok
  acts_length : s.acts.length = s.cfg.nAct
  actn_le : s.actn ≤ s.cfg.nAct
  rdPos_lt : s.rdPos < s.cfg.capacity
  wrPos_lt : s.wrPos < s.cfg.capacity
  slots_wf : Memory.wf s.slots
  slots_lt : ∀ x ∈ s.slots, x.1 < s.cfg.capacity

/-- The invariants (a) and (b) of 43_dispatcher.md R190. -/
structure State.Dispatching (s : State) : Prop where
  run_fatal : s.run = true → s.fatal = false
  run_tinit : s.run = true → s.tinit = true
  run_conf : s.run = true → ∀ i, i < s.actn → (s.act i).conf = true
  off_outside : ∀ i, s.actn ≤ i → (s.act i).ison = false

/-- The values a configured slot may hold (10_state.md R34). -/
structure Activity.Valid (a : Activity) : Prop where
  period_pos : 1 ≤ a.period.toNat
  duration_le : a.duration.toNat ≤ a.period.toNat
  duration_range : a.duration.toNat ≤ 0x7FFFFFFF

/-- Every configured slot holds values ACTCFG accepts (10_state.md R34). -/
def State.Configured (s : State) : Prop := ∀ i, (s.act i).conf = true → (s.act i).Valid

/-- The accumulators of a TASK slot stay 0 (10_state.md R36). -/
def State.TaskIdle (s : State) : Prop :=
  ∀ i, (s.act i).smp = false → (s.act i).ts = 0 ∧ (s.act i).cnt = 0 ∧ (s.act i).sum = 0

/-- The error report: `ERRCAUSE` takes only the codes of 60_exceptions.md R242, and is 0 only while no refusal has
set a flag or `FATAL` (10_state.md R28). -/
structure State.Reporting (s : State) : Prop where
  code_le : s.errCause.toNat ≤ 0x0F
  none_cfgErr : s.errCause = 0 → s.cfgErr = false
  none_cmdErr : s.errCause = 0 → s.cmdErr = false
  none_fatal : s.errCause = 0 → s.fatal = false

/-- Every stored record has bits 31:8 of its pin word clear (20_memory.md R61). -/
def State.PinWords (s : State) : Prop := ∀ x ∈ s.slots, x.2.pinWord.toNat < 256

/-- The invariant of the block, kept by every step. -/
structure State.Inv (s : State) : Prop where
  shape : s.Shape
  dispatching : s.Dispatching
  configured : s.Configured
  taskIdle : s.TaskIdle
  reporting : s.Reporting
  pinWords : s.PinWords

/-! ## The ring buffer as a queue -/

/-- The slots that hold the unread records, oldest first; none for a slot no put has written. -/
def State.unread (s : State) : List (Option SampleRecord) :=
  (List.range s.available).map (fun k => s.slots.read ((s.rdPos + k) % s.cfg.capacity))

/-- An operation on the ring: a put by the producer or a get by the consumer. -/
inductive RingOp where
  | put (rec : SampleRecord)
  | get
deriving DecidableEq, Repr

/-- The records a list of operations puts, in order. -/
def RingOp.puts (ops : List RingOp) : List SampleRecord :=
  match ops with
  | [] => []
  | .put rec :: rest => rec :: RingOp.puts rest
  | .get :: rest => RingOp.puts rest

/-- The ring after a list of operations, and the records its gets returned, in order. -/
def State.ringRun (s : State) (ops : List RingOp) : State × List SampleRecord :=
  match ops with
  | [] => (s, [])
  | .put rec :: rest => (s.rbPut rec).ringRun rest
  | .get :: rest => ((s.afterRbGet.ringRun rest).1, s.rbGetRecord :: (s.afterRbGet.ringRun rest).2)

/-! ## The phase of a periodic task (41_periodic_task.md R150) -/

/-- Whether a task is where R150 puts it after the update of `now = c`: `ON` exactly inside a window that has
opened since START. -/
def Activity.InPhase (a : Activity) (c : Nat) : Prop :=
  a.ison = true ↔
    a.offset.toNat ≤ c ∧ (c - a.offset.toNat) % a.period.toNat < a.duration.toNat ∧
      (1 ≤ a.offset.toNat ∨ a.period.toNat ≤ c)

/-- Whether a sampler that is `ON` after the update of `now = c` has counted one sample for every update of its
window (42_sampler.md R170). -/
def Activity.InCount (a : Activity) (c : Nat) : Prop :=
  a.ison = true → a.cnt.toNat = (c - a.offset.toNat) % a.period.toNat + 1

/-! ## The puts of a tick (41_periodic_task.md R148, 42_sampler.md R164) -/

/-- How many records the update of a slot at `now` puts: none by a TASK or before the offset, one by a window that is
`ON` and ends, and one more by an empty window that opens. -/
def Activity.putCount (a : Activity) (now : Word) : Nat :=
  if a.smp = false ∨ now.toNat < a.offset.toNat then 0
  else if a.elapsed now = 0 then a.ison.toNat + (decide (a.duration.toNat = 0)).toNat
  else (a.ison && decide (a.duration.toNat ≤ a.elapsed now)).toNat

/-- How many records a tick puts: those of every slot of the set. -/
def State.tickPuts (s : State) : Nat :=
  ((List.range s.actn).map (fun i => (s.act i).putCount (s.clock + 1))).sum

/-! ## Runs (00_scope.md R6, R8; 60_exceptions.md R256 to R258) -/

/-- Whether an event is a command of HOST. -/
def Event.isCommand (e : Event) : Bool :=
  match e with
  | .command _ _ => true
  | .tick => false
  | .reset => false

/-- A course of the block without end: its states, the event each step takes, and the program of HOST, the commands it
issues in order with their write data (none past its end; a program may have no end). -/
structure Run where
  state : Nat → State
  event : Nat → Event
  program : Nat → Option (Word × Word)

/-- How many commands were issued before step `n`: the number of HOST's next command. A reset does not restart the
program (DEDUCED, log 13). -/
def Run.issued (r : Run) (n : Nat) : Nat :=
  match n with
  | 0 => 0
  | k + 1 => r.issued k + (r.event k).isCommand.toNat

/-- An infinite run: each step of the machine takes the next event, a tick only where it is enabled
(43_dispatcher.md R180), and a command only as HOST's program has it next. Any interleaving is allowed (R8); the
state of one step holds no agenda of the steps to come (log 2). -/
structure Run.Infinite (r : Run) : Prop where
  steps : ∀ n, step { r.state n with agenda := [r.event n] } = .next (r.state (n + 1))
  ticks : ∀ n, r.event n = .tick → (r.state n).run = true
  commands : ∀ n cmd wdata, r.event n = .command cmd wdata → r.program (r.issued n) = some (cmd, wdata)

/-- The fairness of 60_exceptions.md R257: if `RUN = 1` from some point on, TICK takes infinitely many ticks; and if
HOST has a next command, it issues it eventually. -/
structure Run.Fair (r : Run) : Prop where
  ticks : (∃ n, ∀ m, n ≤ m → (r.state m).run = true) → ∀ n, ∃ m, n ≤ m ∧ r.event m = .tick
  host : ∀ n, r.program (r.issued n) ≠ none → ∃ m, n ≤ m ∧ (r.event m).isCommand = true

/-- A run is complete (60_exceptions.md R258): the host has issued its last command and `RUN = 0`. -/
def State.Complete (s : State) : Prop := s.agenda = [] ∧ s.run = false

end Sys2Proof.Machine
end

