-- ==== Sys2Proof/Certificates/Slice0/Obligations.lean ====
section
/-! DEFINITION. The statements for the provers. Each docstring names the rules of spec/ it formalises; `answers`
and `refusedWith` spell out the two kinds of response of 30_encoding.md R80 and 60_exceptions.md R241. -/

open Sys2Proof Sys2Proof.Machine

namespace Sys2Proof.Claims

/-- The response of a command that was carried out, with its four words. -/
def answers (r0 r1 r2 r3 : Word) : Option Response := some { ok := true, r0 := r0, r1 := r1, r2 := r2, r3 := r3 }

/-- The response of a command that was not carried out. -/
def notDone : Option Response := some { ok := false, r0 := 0, r1 := 0, r2 := 0, r3 := 0 }

/-- The state after a refusal (60_exceptions.md R241) with a cause code, of the configuration-value kind or not. -/
def refusedWith (s : State) (code : BitVec 8) (isConfig : Bool) : State :=
  { s with
    errCause := code
    cfgErr := s.cfgErr || isConfig
    cmdErr := s.cmdErr || !isConfig
    resp := notDone }

/-- A slot whose fields that a tick may write are taken from another: its other fields are `a`'s. -/
def withRunTime (a b : Activity) : Activity := { a with ison := b.ison, ts := b.ts, cnt := b.cnt, sum := b.sum }

/-- A word whose bits are given by a function of the bit's number. -/
def HasBits (w : Word) (f : Nat → Bool) : Prop := ∀ b, b < 32 → w.getLsbD b = f b

/-- What START does to a slot of the new set (41_periodic_task.md R141, 42_sampler.md R163). -/
def started (a : Activity) : Activity :=
  if a.smp then { a with ison := false, ts := 0, cnt := 0, sum := 0 } else { a with ison := false }

/-- Whether a CSR address is mapped for `N_ACT = nAct` (10_state.md R39). -/
def Mapped (nAct a : Nat) : Prop :=
  a ≤ 0x008 ∨ (0x010 ≤ a ∧ a ≤ 0x013) ∨ (0x100 ≤ a ∧ a < 0x100 + 8 * nAct)

/-- The state once an event is taken: `rest` is left on the agenda (log 2) and the event enters the history that a draw
may depend on (log 6). -/
def taken (s : State) (e : Event) (rest : List Event) : State :=
  { s with agenda := rest, env := { s.env with history := .event e :: s.env.history } }

/-- Whether a command is one that can be refused or can fail (60_exceptions.md R242, R244). -/
def CanBeRefused (i : Instr) : Prop :=
  i = .init ∨ (∃ n, i = .start n) ∨ (∃ k, i = .actcfg k) ∨ (∃ a, i = .csrr a) ∨ ∃ a v, i = .csrw a v

/-- The next step is the reset event. -/
def ResetNext (s : State) : Prop := ∃ rest, s.agenda = .reset :: rest

/-- The next step is a CSRW to `STATUS` whose written word has bit `b` set. -/
def StatusClearNext (s : State) (b : Nat) : Prop :=
  ∃ cmd wdata rest, s.agenda = .command cmd wdata :: rest ∧
    decode cmd wdata = .instr (.csrw 0x000 wdata) ∧ wdata.getLsbD b = true

end Sys2Proof.Claims

open Sys2Proof.Claims

/-! ## Steps, decoding and encoding -/

/-- A step runs the decoded command: with a command first on the agenda that decodes to `i`, the step is `exec i` of
the state with that command taken, off the agenda and into the history, and nothing else around it (20_memory.md R66).
The agenda is the model's choice (log 2), and the history its inference (log 6). -/
def Obligations.StepRunsDecodedCommand : Prop :=
  ∀ (s : State) (cmd wdata : Word) (rest : List Event) (i : Instr),
    s.agenda = .command cmd wdata :: rest → decode cmd wdata = .instr i →
      step s = exec i (taken s (.command cmd wdata) rest)

/-- 30_encoding.md R88 and R89: a word whose `OPC` is not listed is refused with `ILLEGAL_OPCODE` (0x01), a word with
a listed `OPC` and a nonzero reserved field with `RESERVED_FIELD` (0x02), and nothing else changes. The agenda and the
history are the model's own (logs 2, 6). -/
def Obligations.StepRefusesUndecodableWords : Prop :=
  ∀ (s : State) (cmd wdata : Word) (rest : List Event), s.agenda = .command cmd wdata :: rest →
    (cmd.toNat / 2 ^ 24 ∉ [0x00, 0x01, 0x02, 0x03, 0x04, 0x08, 0x10, 0x11, 0x12, 0x13, 0x20, 0x21] →
      step s = .next (refusedWith (taken s (.command cmd wdata) rest) 0x01 false)) ∧
    (cmd.toNat / 2 ^ 24 ∈ [0x00, 0x01, 0x03, 0x04, 0x10, 0x11, 0x12, 0x13] → cmd.toNat % 2 ^ 24 ≠ 0 →
      step s = .next (refusedWith (taken s (.command cmd wdata) rest) 0x02 false)) ∧
    (cmd.toNat / 2 ^ 24 ∈ [0x02, 0x08] → cmd.toNat % 2 ^ 16 ≠ 0 →
      step s = .next (refusedWith (taken s (.command cmd wdata) rest) 0x02 false)) ∧
    (cmd.toNat / 2 ^ 24 ∈ [0x20, 0x21] → cmd.toNat / 2 ^ 12 % 2 ^ 12 ≠ 0 →
      step s = .next (refusedWith (taken s (.command cmd wdata) rest) 0x02 false))

/-- 30_encoding.md R94: the worked encodings. -/
def Obligations.WorkedEncodingsDecode : Prop :=
  decode 0x02030000 0 = .instr (.start 3) ∧ decode 0x08010000 0 = .instr (.actcfg 1) ∧
    decode 0x21000011 0x000003E8 = .instr (.csrw 0x011 1000) ∧ decode 0x20000116 0 = .instr (.csrr (0x100 + 8 * 2 + 6)) ∧
    decode 0x12000000 0 = .instr .get ∧ decode 0x12000001 0 = .reject .reservedField ∧
    decode 0x05000000 0 = .reject .illegalOpcode

/-- The forms of 30_encoding.md R91 at every operand value, read off the decoder: whatever `WDATA` a transaction
carries, only CSRW uses it (R85). -/
def Obligations.AssemblerFormsDecode : Prop :=
  ∀ w : Word,
    decode 0x00000000 w = .instr .nop ∧ decode 0x01000000 w = .instr .init ∧ decode 0x03000000 w = .instr .stop ∧
    decode 0x04000000 w = .instr .isactive ∧ decode 0x10000000 w = .instr .avail ∧
    decode 0x11000000 w = .instr .space ∧ decode 0x12000000 w = .instr .get ∧ decode 0x13000000 w = .instr .flush ∧
    (∀ n, n ≤ 255 → decode (BitVec.ofNat 32 (0x02000000 + n * 2 ^ 16)) w = .instr (.start n)) ∧
    (∀ k, k ≤ 255 → decode (BitVec.ofNat 32 (0x08000000 + k * 2 ^ 16)) w = .instr (.actcfg k)) ∧
    (∀ a, a ≤ 0xFFF → decode (BitVec.ofNat 32 (0x20000000 + a)) w = .instr (.csrr a)) ∧
    (∀ a, a ≤ 0xFFF → decode (BitVec.ofNat 32 (0x21000000 + a)) w = .instr (.csrw a w))

/-- Decode and encode agree: every well-formed command, at every value of every operand (30_encoding.md R81 to
R87). -/
def Obligations.DecodeOfEncode : Prop :=
  ∀ i : Instr, i.WellFormed → decode (encode i) i.wdata = .instr i

/-- Every word that decodes is the encoding of the command it decodes to, which is well formed: no two words, and no
bit of a word, are confused (30_encoding.md R87). -/
def Obligations.EncodeOfDecode : Prop :=
  ∀ (cmd wdata : Word) (i : Instr), decode cmd wdata = .instr i →
    i.WellFormed ∧ encode i = cmd ∧ ∀ (a : Nat) (v : Word), i = .csrw a v → v = wdata

/-- 43_dispatcher.md R180 and 60_exceptions.md R258: a tick on the agenda is taken exactly when `RUN = 1`; with the
agenda empty the TICK agent alone steps, and with `RUN = 0` besides no agent has a step. That a tick which is not
enabled is dropped, and that the end of a run is a fault, is the model's choice (logs 3, 4); a tick that is taken
enters the history (log 6). -/
def Obligations.TicksAndEndOfRun : Prop :=
  ∀ s : State,
    (∀ rest, s.agenda = .tick :: rest → s.run = true → step s = .next (taken s .tick rest).tick) ∧
    (∀ rest, s.agenda = .tick :: rest → s.run = false → step s = .next { s with agenda := rest }) ∧
    (s.agenda = [] → s.run = true → step s = .next (taken s .tick []).tick) ∧
    (s.agenda = [] → s.run = false → step s = .fault .runComplete)

/-- 60_exceptions.md R240: every command answers, and a step stops in one case alone: nothing is on the agenda and
`RUN = 0` (R258; that this stop is a fault is the model's choice, log 3). -/
def Obligations.EveryCommandAnswers : Prop :=
  (∀ (i : Instr) (s : State), ∃ t r, exec i s = .next t ∧ t.resp = some r) ∧
    (∀ s : State, (∃ t, step s = .next t) ∨ (s.Complete ∧ step s = .fault .runComplete))

/-! ## Reset -/

/-- 70_reset_and_hazards.md R270 with 10_state.md R47: the reset event, at any point between steps, sets every state
field to its reset value. -/
def Obligations.ResetEventSetsEveryField : Prop :=
  ∀ (s : State) (rest : List Event), s.agenda = .reset :: rest →
    ∃ t, step s = .next t ∧
      t.run = false ∧ t.tinit = false ∧ t.fatal = false ∧
      t.ovf = false ∧ t.unf = false ∧ t.cfgErr = false ∧ t.cmdErr = false ∧ t.errCause = 0 ∧
      t.clock = 0 ∧ t.actn = 0 ∧ t.rdPos = 0 ∧ t.wrPos = 0 ∧
      t.cfgOffset = 0 ∧ t.cfgPeriod = 0 ∧ t.cfgDuration = 0 ∧ t.cfgFlags = 0 ∧
      (∀ k, t.slots.read k = none) ∧ t.acts.length = s.cfg.nAct ∧
      ∀ i, i < s.cfg.nAct → t.act i =
        { offset := 0, period := 0, duration := 0, sec := false, smp := false, ppin := 0, opin := 0,
          conf := false, ison := false, ts := 0, cnt := 0, sum := 0 }

/-- The invariants hold right after reset, at every choice of the parameters 00_scope.md R5 allows, and so at
`State.reset`. -/
def Obligations.ResetMeetsInvariants : Prop :=
  State.reset.Inv ∧
    ∀ (cfg : Params) (agenda : List Event) (env : Env), cfg.Ok → (State.afterReset cfg agenda env).Inv

/-! ## NOP and the CSR commands (44_csr.md) -/

/-- 44_csr.md R220 and 43_dispatcher.md R188: NOP and ISACTIVE complete in every state, answer 0 and `RUN`, and change
nothing else. -/
def Obligations.NopAndIsactiveOnlyRespond : Prop :=
  ∀ s : State,
    exec .nop s = .next { s with resp := answers 0 0 0 0 } ∧
    exec .isactive s = .next { s with resp := answers (if s.run = true then 1 else 0) 0 0 0 }

/-- 44_csr.md R221 with 10_state.md R39 and R41: CSRR of a control, clock, index, parameter or staging register
answers its value and changes nothing else. -/
def Obligations.CsrrReadsControlRegisters : Prop :=
  ∀ s : State, s.Shape →
    exec (.csrr 0x001) s = .next { s with resp := answers (s.errCause.setWidth 32) 0 0 0 } ∧
    exec (.csrr 0x002) s = .next { s with resp := answers s.clock 0 0 0 } ∧
    (∃ w : Word, w.toNat = s.actn ∧ exec (.csrr 0x003) s = .next { s with resp := answers w 0 0 0 }) ∧
    (∃ w : Word, w.toNat = s.rdPos ∧ exec (.csrr 0x004) s = .next { s with resp := answers w 0 0 0 }) ∧
    (∃ w : Word, w.toNat = s.wrPos ∧ exec (.csrr 0x005) s = .next { s with resp := answers w 0 0 0 }) ∧
    (∃ w : Word, w.toNat = s.cfg.capacity ∧ exec (.csrr 0x006) s = .next { s with resp := answers w 0 0 0 }) ∧
    (∃ w : Word, w.toNat = s.cfg.nAct ∧ exec (.csrr 0x007) s = .next { s with resp := answers w 0 0 0 }) ∧
    exec (.csrr 0x010) s = .next { s with resp := answers s.cfgOffset 0 0 0 } ∧
    exec (.csrr 0x011) s = .next { s with resp := answers s.cfgPeriod 0 0 0 } ∧
    exec (.csrr 0x012) s = .next { s with resp := answers s.cfgDuration 0 0 0 } ∧
    exec (.csrr 0x013) s = .next { s with resp := answers s.cfgFlags 0 0 0 }

/-- 10_state.md R40 and R42: CSRR of `STATUS` and of `OUT`, bit by bit. -/
def Obligations.CsrrReadsStatusAndOut : Prop :=
  ∀ s : State, s.Shape →
    (∃ w : Word, exec (.csrr 0x000) s = .next { s with resp := answers w 0 0 0 } ∧
      HasBits w (fun b => if b = 0 then s.run else if b = 1 then s.tinit else if b = 2 then s.fatal
        else if b = 3 then s.ovf else if b = 4 then s.unf else if b = 5 then s.cfgErr
        else if b = 6 then s.cmdErr else false)) ∧
    (∃ w : Word, exec (.csrr 0x008) s = .next { s with resp := answers w 0 0 0 } ∧
      HasBits w (fun b => if b < s.cfg.nAct then (s.act b).ison else false))

/-- 10_state.md R44 and R45: CSRR of the eight registers of an activity slot. -/
def Obligations.CsrrReadsActivitySlots : Prop :=
  ∀ (s : State) (i : Nat), s.Shape → i < s.cfg.nAct →
    exec (.csrr (0x100 + 8 * i)) s = .next { s with resp := answers (s.act i).offset 0 0 0 } ∧
    exec (.csrr (0x100 + 8 * i + 1)) s = .next { s with resp := answers (s.act i).period 0 0 0 } ∧
    exec (.csrr (0x100 + 8 * i + 2)) s = .next { s with resp := answers (s.act i).duration 0 0 0 } ∧
    (∃ w : Word, exec (.csrr (0x100 + 8 * i + 3)) s = .next { s with resp := answers w 0 0 0 } ∧
      w.toNat = (s.act i).opin.toNat * 2 ^ 16 + (s.act i).ppin.toNat * 2 ^ 8 +
        (s.act i).smp.toNat * 2 + (s.act i).sec.toNat) ∧
    (∃ w : Word, exec (.csrr (0x100 + 8 * i + 4)) s = .next { s with resp := answers w 0 0 0 } ∧
      HasBits w (fun b => if b = 0 then (s.act i).ison else if b = 1 then (s.act i).conf
        else if b = 2 then decide (i < s.actn) else false)) ∧
    exec (.csrr (0x100 + 8 * i + 5)) s = .next { s with resp := answers (s.act i).ts 0 0 0 } ∧
    exec (.csrr (0x100 + 8 * i + 6)) s = .next { s with resp := answers (s.act i).cnt 0 0 0 } ∧
    exec (.csrr (0x100 + 8 * i + 7)) s = .next { s with resp := answers (s.act i).sum 0 0 0 }

/-- 10_state.md R39: an address the CSR map does not list is refused with `CSR_UNMAPPED` (0x03), by CSRR and by
CSRW. -/
def Obligations.UnmappedCsrsAreRefused : Prop :=
  ∀ (s : State) (a : Nat) (v : Word), ¬ Mapped s.cfg.nAct a →
    exec (.csrr a) s = .next (refusedWith s 0x03 false) ∧ exec (.csrw a v) s = .next (refusedWith s 0x03 false)

/-- 44_csr.md R222: a CSRW to a mapped register other than `STATUS` and the staging registers is refused with
`CSR_READ_ONLY` (0x04), every register of an activity slot included. -/
def Obligations.ReadOnlyCsrsAreRefused : Prop :=
  ∀ (s : State) (a : Nat) (v : Word), Mapped s.cfg.nAct a → a ≠ 0x000 → ¬ (0x010 ≤ a ∧ a ≤ 0x013) →
    exec (.csrw a v) s = .next (refusedWith s 0x04 false)

/-- 44_csr.md R223 and R224: a CSRW to `STATUS` clears the flags whose bit is 1 and nothing else, and a CSRW to a
staging register stores all 32 bits, in every state. -/
def Obligations.CsrwWritesStatusAndStaging : Prop :=
  ∀ (s : State) (v : Word),
    exec (.csrw 0x000 v) s = .next { s with
      ovf := if v.getLsbD 3 = true then false else s.ovf
      unf := if v.getLsbD 4 = true then false else s.unf
      cfgErr := if v.getLsbD 5 = true then false else s.cfgErr
      cmdErr := if v.getLsbD 6 = true then false else s.cmdErr
      resp := answers 0 0 0 0 } ∧
    exec (.csrw 0x010 v) s = .next { s with cfgOffset := v, resp := answers 0 0 0 0 } ∧
    exec (.csrw 0x011 v) s = .next { s with cfgPeriod := v, resp := answers 0 0 0 0 } ∧
    exec (.csrw 0x012 v) s = .next { s with cfgDuration := v, resp := answers 0 0 0 0 } ∧
    exec (.csrw 0x013 v) s = .next { s with cfgFlags := v, resp := answers 0 0 0 0 }

/-! ## The consumer's commands (40_ringbuffer.md) -/

/-- 40_ringbuffer.md R110, R111, R118, R119: AVAIL and SPACE answer the counts the indices give, and change nothing
else; the two counts add up to `CAPACITY - 1` (R112). -/
def Obligations.AvailAndSpaceAnswerCounts : Prop :=
  ∀ s : State, s.cfg.capacity ≤ 65536 → s.rdPos < s.cfg.capacity → s.wrPos < s.cfg.capacity →
    ∃ a p : Word,
      exec .avail s = .next { s with resp := answers a 0 0 0 } ∧
      exec .space s = .next { s with resp := answers p 0 0 0 } ∧
      a.toNat = (if s.wrPos ≥ s.rdPos then s.wrPos - s.rdPos else s.cfg.capacity + s.wrPos - s.rdPos) ∧
      p.toNat = s.cfg.capacity - 1 - a.toNat ∧ a.toNat + p.toNat = s.cfg.capacity - 1

/-- 40_ringbuffer.md R120: with a record unread, GET answers its four words and advances `RDPOS`, and changes nothing
else: no slot, no flag. -/
def Obligations.GetAnswersOldestRecord : Prop :=
  ∀ (s : State) (r : SampleRecord), s.rdPos < s.cfg.capacity → s.wrPos < s.cfg.capacity → s.rdPos ≠ s.wrPos →
    s.slots.read s.rdPos = some r →
      exec .get s = .next { s with
        rdPos := (s.rdPos + 1) % s.cfg.capacity
        resp := answers r.pinWord r.timestamp r.count r.sum }

/-- 40_ringbuffer.md R117: a GET on an empty buffer is carried out; it answers the record of the slot at `WRPOS`, or a
draw if none was written there; it sets `UNF` and leaves the buffer reading as full of the slots' stale contents, in
index order; the first put after it sets `OVF`. That a draw is the next answer listed is the model's choice (log 5). -/
def Obligations.GetOnEmptyBufferReadsAsFull : Prop :=
  ∀ s : State, s.rdPos < s.cfg.capacity → s.wrPos = s.rdPos →
    ∃ t, exec .get s = .next t ∧
      t = { s with unf := true, rdPos := (s.wrPos + 1) % s.cfg.capacity, resp := t.resp, env := t.env } ∧
      t.available = s.cfg.capacity - 1 ∧ t.space = 0 ∧ (∀ rec, (t.rbPut rec).ovf = true) ∧
      t.unread = (List.range (s.cfg.capacity - 1)).map
        (fun k => s.slots.read ((s.wrPos + 1 + k) % s.cfg.capacity)) ∧
      (∀ r, s.slots.read s.wrPos = some r →
        t.resp = answers r.pinWord r.timestamp r.count r.sum ∧ t.env = s.env) ∧
      (∀ b rest, s.slots.read s.wrPos = none → s.env.emptySlot = b :: rest →
        t.resp = answers (b.extractLsb' 0 32) (b.extractLsb' 32 32) (b.extractLsb' 64 32) (b.extractLsb' 96 32))

/-- 40_ringbuffer.md R116: a GET of a slot never written since reset answers a draw: every 128 bits the environment may
give next are what it answers, and the rest of its effect does not depend on them. That a draw is the next answer
listed, and enters the history, is the model's choice (logs 5, 6). -/
def Obligations.GetOfUnwrittenSlotAnswersDraw : Prop :=
  ∀ (s : State) (b : BitVec 128) (rest : List (BitVec 128)), s.rdPos < s.cfg.capacity → s.wrPos < s.cfg.capacity →
    s.slots.read s.rdPos = none → s.env.emptySlot = b :: rest →
      exec .get s = .next { s with
        unf := s.unf || decide (s.rdPos = s.wrPos)
        rdPos := (s.rdPos + 1) % s.cfg.capacity
        env := { s.env with emptySlot := rest, history := .emptySlot b :: s.env.history }
        resp := answers (b.extractLsb' 0 32) (b.extractLsb' 32 32) (b.extractLsb' 64 32) (b.extractLsb' 96 32) }

/-- 40_ringbuffer.md R116 and 10_state.md R48: whatever the slot holds, GET completes, and changes nothing but `UNF`,
`RDPOS`, the response and, for a slot never written, the environment; `UNF` is set exactly if the buffer was
empty. -/
def Obligations.GetFrame : Prop :=
  ∀ s : State, s.rdPos < s.cfg.capacity → s.wrPos < s.cfg.capacity →
    ∃ t r0 r1 r2 r3, exec .get s = .next t ∧
      t = { s with
        unf := if s.rdPos = s.wrPos then true else s.unf
        rdPos := (s.rdPos + 1) % s.cfg.capacity
        resp := answers r0 r1 r2 r3
        env := t.env } ∧
      (∀ k, t.slots.read k = s.slots.read k) ∧ (s.slots.read s.rdPos ≠ none → t.env = s.env)

/-- 40_ringbuffer.md R121: FLUSH sets `RDPOS` to `WRPOS` and changes nothing else; the buffer is then empty. -/
def Obligations.FlushDiscardsUnreadRecords : Prop :=
  ∀ s : State, ∃ t, exec .flush s = .next t ∧ t = { s with rdPos := s.wrPos, resp := answers 0 0 0 0 } ∧
    t.available = 0 ∧ t.unread = []

/-! ## The timer contract (43_dispatcher.md) -/

/-- 43_dispatcher.md R185: INIT in each of its cases. A timer failure (60_exceptions.md R247) sets `FATAL`, `CMDERR`
and `ERRCAUSE` and leaves `TINIT`; it is possible only when `TIMER_CAN_FAIL`. -/
def Obligations.InitCases : Prop :=
  ∀ s : State,
    (s.fatal = true → exec .init s = .next (refusedWith s 0x0E false)) ∧
    (s.fatal = false → s.tinit = true → exec .init s = .next { s with resp := answers 0 0 0 0 }) ∧
    (s.fatal = false → s.tinit = false → s.tfailAnswer = false →
      ∃ e, exec .init s = .next { s with tinit := true, env := e, resp := answers 0 0 0 0 }) ∧
    (s.fatal = false → s.tinit = false → s.tfailAnswer = true →
      s.cfg.timerCanFail = true ∧
      ∃ e, exec .init s = .next { refusedWith { s with env := e } 0x0F false with fatal := true, run := false })

/-- 43_dispatcher.md R186: a START that is not refused and whose timer does not fail. The draw is made in the state the
start has left so far, `s.beginRun n`. -/
def Obligations.StartResult : Prop :=
  ∀ (s : State) (n : Nat), s.fatal = false → s.tinit = true → n ≤ s.cfg.nAct → s.acts.length = s.cfg.nAct →
    (∀ i, i < n → (s.act i).conf = true) → (s.beginRun n).tfailAnswer = false →
      ∃ t, exec (.start n) s = .next t ∧
        t = { s with run := true, actn := n, clock := 0, acts := t.acts, env := t.env, resp := answers 0 0 0 0 } ∧
        t.acts.length = s.acts.length ∧
        ∀ i, t.act i =
          if i < n then started (s.act i) else if i < s.actn then { s.act i with ison := false } else s.act i

/-- 60_exceptions.md R247: a START whose timer fails keeps what it did before the draw, and `RUN` is 0 and `FATAL` 1. -/
def Obligations.StartTimerFailure : Prop :=
  ∀ (s : State) (n : Nat), s.fatal = false → s.tinit = true → n ≤ s.cfg.nAct → s.acts.length = s.cfg.nAct →
    (∀ i, i < n → (s.act i).conf = true) → (s.beginRun n).tfailAnswer = true →
      s.cfg.timerCanFail = true ∧ ∃ t, exec (.start n) s = .next t ∧
        t = { refusedWith s 0x0F false with
          run := false, fatal := true, actn := n, clock := 0, acts := t.acts, env := t.env } ∧
        t.acts.length = s.acts.length ∧
        ∀ i, t.act i =
          if i < n then started (s.act i) else if i < s.actn then { s.act i with ison := false } else s.act i

/-- 60_exceptions.md R244, the row of START: the checks in their order, and a refused START changes nothing but the
error report. -/
def Obligations.StartRefusals : Prop :=
  ∀ (s : State) (n : Nat),
    (s.fatal = true → exec (.start n) s = .next (refusedWith s 0x0E false)) ∧
    (s.fatal = false → s.tinit = false → exec (.start n) s = .next (refusedWith s 0x05 false)) ∧
    (s.fatal = false → s.tinit = true → s.cfg.nAct < n → exec (.start n) s = .next (refusedWith s 0x06 false)) ∧
    (s.fatal = false → s.tinit = true → n ≤ s.cfg.nAct → (∃ i, i < n ∧ (s.act i).conf = false) →
      exec (.start n) s = .next (refusedWith s 0x07 false))

/-- 43_dispatcher.md R187: STOP, in every state: `RUN` and the set are cleared, every slot of the set goes `OFF` with
its accumulators kept, and nothing else changes: no record is put, `CLOCK` stays. -/
def Obligations.StopResult : Prop :=
  ∀ s : State, ∃ t, exec .stop s = .next t ∧
    t = { s with run := false, actn := 0, acts := t.acts, resp := answers 0 0 0 0 } ∧
    t.acts.length = s.acts.length ∧
    ∀ i, t.act i = if i < s.actn then { s.act i with ison := false } else s.act i

/-- 43_dispatcher.md R191: STOP and then START n leave `CLOCK` 0 and every task `OFF`, with the ring buffer
unchanged. START is taken not to be refused and its timer not to fail. -/
def Obligations.StopThenStart : Prop :=
  ∀ (s : State) (n : Nat), s.Dispatching → s.fatal = false → s.tinit = true → n ≤ s.cfg.nAct →
    s.acts.length = s.cfg.nAct → (∀ i, i < n → (s.act i).conf = true) →
      ∃ t, exec .stop s = .next t ∧ ((t.beginRun n).tfailAnswer = false →
        ∃ u, exec (.start n) t = .next u ∧ u.clock = 0 ∧ u.run = true ∧
          (∀ i, (u.act i).ison = false) ∧ u.rdPos = s.rdPos ∧ u.wrPos = s.wrPos ∧ u.unread = s.unread ∧
          ∀ k, u.slots.read k = s.slots.read k)

/-- 43_dispatcher.md R189: an ACTCFG whose checks pass writes its slot from the staging registers, and nothing else. -/
def Obligations.ActcfgResult : Prop :=
  ∀ (s : State) (i : Nat), s.acts.length = s.cfg.nAct → i < s.cfg.nAct → s.run = false →
    s.cfgFlags.extractLsb' 2 6 = 0 → s.cfgFlags.extractLsb' 24 8 = 0 → 1 ≤ s.cfgPeriod.toNat →
    s.cfgDuration.toNat ≤ s.cfgPeriod.toNat → s.cfgDuration.toNat ≤ 0x7FFFFFFF →
      ∃ t, exec (.actcfg i) s = .next t ∧
        t = { s with acts := t.acts, resp := answers 0 0 0 0 } ∧ t.acts.length = s.acts.length ∧
        t.act i =
          { offset := s.cfgOffset, period := s.cfgPeriod, duration := s.cfgDuration,
            sec := s.cfgFlags.getLsbD 0, smp := s.cfgFlags.getLsbD 1,
            ppin := s.cfgFlags.extractLsb' 8 8, opin := s.cfgFlags.extractLsb' 16 8,
            conf := true, ison := false, ts := 0, cnt := 0, sum := 0 } ∧
        ∀ j, j ≠ i → t.act j = s.act j

/-- 60_exceptions.md R244, the row of ACTCFG: the checks in their order, each with its flag (R243), and the slot is
unchanged. -/
def Obligations.ActcfgRefusals : Prop :=
  ∀ (s : State) (i : Nat),
    (s.cfg.nAct ≤ i → exec (.actcfg i) s = .next (refusedWith s 0x08 false)) ∧
    (i < s.cfg.nAct → s.run = true → exec (.actcfg i) s = .next (refusedWith s 0x09 false)) ∧
    (i < s.cfg.nAct → s.run = false →
      ((s.cfgFlags.extractLsb' 2 6 ≠ 0 ∨ s.cfgFlags.extractLsb' 24 8 ≠ 0) →
        exec (.actcfg i) s = .next (refusedWith s 0x0D true)) ∧
      (s.cfgFlags.extractLsb' 2 6 = 0 → s.cfgFlags.extractLsb' 24 8 = 0 →
        (s.cfgPeriod = 0 → exec (.actcfg i) s = .next (refusedWith s 0x0A true)) ∧
        (s.cfgPeriod ≠ 0 → s.cfgPeriod.toNat < s.cfgDuration.toNat →
          exec (.actcfg i) s = .next (refusedWith s 0x0B true)) ∧
        (s.cfgPeriod ≠ 0 → s.cfgDuration.toNat ≤ s.cfgPeriod.toNat → 0x7FFFFFFF < s.cfgDuration.toNat →
          exec (.actcfg i) s = .next (refusedWith s 0x0C true))))

/-- 10_state.md R43 and R44: a `CFG_FLAGS` value that ACTCFG accepts reads back from `ACT<i>_FLAGS` as it was
staged. -/
def Obligations.AcceptedFlagsReadBack : Prop :=
  ∀ (s t : State) (i : Nat), s.acts.length = s.cfg.nAct → exec (.actcfg i) s = .next t →
    t.resp = answers 0 0 0 0 →
      exec (.csrr (0x100 + 8 * i + 3)) t = .next { t with resp := answers s.cfgFlags 0 0 0 }

/-! ## The ring buffer (40_ringbuffer.md) -/

/-- 40_ringbuffer.md R112 and R113: the counts in every state whose indices are in range. -/
def Obligations.RingCounts : Prop :=
  ∀ s : State, s.rdPos < s.cfg.capacity → s.wrPos < s.cfg.capacity →
    s.available + s.space = s.cfg.capacity - 1 ∧
    (s.rdPos = s.wrPos ↔ s.available = 0) ∧
    ((s.wrPos + 1) % s.cfg.capacity = s.rdPos ↔ s.space = 0) ∧
    (s.space = 0 ↔ s.available = s.cfg.capacity - 1)

/-- 40_ringbuffer.md R114: a put writes the slot at `WRPOS` and no other, advances `WRPOS`, sets `OVF` if the buffer
was full and leaves it otherwise, and changes nothing else. -/
def Obligations.PutWritesOneSlot : Prop :=
  ∀ (s : State) (rec : SampleRecord),
    (s.rbPut rec) = { s with
      ovf := if s.space = 0 then true else s.ovf
      slots := (s.rbPut rec).slots
      wrPos := (s.wrPos + 1) % s.cfg.capacity } ∧
    ∀ k, (s.rbPut rec).slots.read k = if k = s.wrPos then some rec else s.slots.read k

/-- 40_ringbuffer.md R115: a put on a full buffer leaves it reading as empty, and the next put writes the slot of the
oldest lost record, the only record then readable. -/
def Obligations.PutOnFullBufferLosesUnread : Prop :=
  ∀ (s : State) (r1 r2 : SampleRecord), 2 ≤ s.cfg.capacity → s.rdPos < s.cfg.capacity → s.wrPos < s.cfg.capacity →
    (s.wrPos + 1) % s.cfg.capacity = s.rdPos →
      s.available = s.cfg.capacity - 1 ∧
      (s.rbPut r1).ovf = true ∧ (s.rbPut r1).wrPos = s.rdPos ∧ (s.rbPut r1).available = 0 ∧
      (s.rbPut r1).unread = [] ∧ (s.rbPut r1).slots.read s.wrPos = some r1 ∧
      (∀ k, k ≠ s.wrPos → (s.rbPut r1).slots.read k = s.slots.read k) ∧
      ((s.rbPut r1).rbPut r2).available = 1 ∧ ((s.rbPut r1).rbPut r2).slots.read s.rdPos = some r2 ∧
      ((s.rbPut r1).rbPut r2).unread = [some r2]

/-- 40_ringbuffer.md R123: over any sequence of puts and gets from an empty buffer in which no put overflows and no get
underflows, the gets return the records put, each once, in order, and what is left unread is the rest. -/
def Obligations.PutsAndGetsAreFifo : Prop :=
  ∀ (s : State) (ops : List RingOp), s.rdPos < s.cfg.capacity → s.wrPos = s.rdPos →
    s.ovf = false → s.unf = false →
    (s.ringRun ops).1.ovf = false → (s.ringRun ops).1.unf = false →
      (RingOp.puts ops).map some = (s.ringRun ops).2.map some ++ (s.ringRun ops).1.unread

/-- The ring as a queue, at every step of the block: a GET takes the head and answers it, FLUSH and reset empty the
queue, every other command leaves it, and a tick that puts no more records than there are free slots appends them, as
many as it puts; a tick that is not enabled leaves it (40_ringbuffer.md R114, R116, R121, R122; 20_memory.md R67). That
such a tick is dropped is the model's choice (log 4). -/
def Obligations.StepsKeepQueueDiscipline : Prop :=
  ∀ s t : State, s.Shape → step s = .next t →
    (∀ cmd wdata rest, s.agenda = .command cmd wdata :: rest →
      (decode cmd wdata = .instr .get → 0 < s.available →
        ∃ x, s.unread = x :: t.unread ∧
          ∀ r, x = some r → t.resp = answers r.pinWord r.timestamp r.count r.sum) ∧
      (decode cmd wdata = .instr .flush → t.unread = []) ∧
      (decode cmd wdata ≠ .instr .get → decode cmd wdata ≠ .instr .flush → t.unread = s.unread)) ∧
    (∀ rest, s.agenda = .reset :: rest → t.unread = []) ∧
    ((s.agenda = [] ∨ ∃ rest, s.agenda = .tick :: rest) →
      (s.run = true → s.tickPuts ≤ s.space →
        ∃ recs : List SampleRecord, recs.length = s.tickPuts ∧ t.unread = s.unread ++ recs.map some) ∧
      (s.run = false → t.unread = s.unread))

/-! ## The periodic task and the sampler (41_periodic_task.md, 42_sampler.md) -/

/-- 41_periodic_task.md R143 to R147: the state `TaskStep` leaves its task in. Before the offset nothing changes; at
the start of a period the task is `ON` unless its window is empty; within a period it stays `ON` only while
`e < D`. -/
def Obligations.TaskStepTransitions : Prop :=
  ∀ (s : State) (i : Nat) (now : Word), i < s.acts.length →
    (now.toNat < (s.act i).offset.toNat → s.taskStep i now = s) ∧
    ((s.act i).offset.toNat ≤ now.toNat →
      (now.toNat - (s.act i).offset.toNat) % (s.act i).period.toNat = 0 →
        (((s.taskStep i now).act i).ison = true ↔ (s.act i).duration.toNat ≠ 0)) ∧
    ((s.act i).offset.toNat ≤ now.toNat →
      (now.toNat - (s.act i).offset.toNat) % (s.act i).period.toNat ≠ 0 →
        (((s.taskStep i now).act i).ison = true ↔ (s.act i).ison = true ∧
          (now.toNat - (s.act i).offset.toNat) % (s.act i).period.toNat < (s.act i).duration.toNat))

/-- 41_periodic_task.md R143 and R148: the callback sequences of one `TaskStep`, each exactly where its conditions hold:
with `e` the time since the last start of a period, no case overlaps another and none is left out. -/
def Obligations.TaskStepCallbackSequences : Prop :=
  ∀ (s : State) (i : Nat) (now : Word), i < s.acts.length →
    (s.taskStep i now = s ∧
      (now.toNat < (s.act i).offset.toNat ∨
        ((s.act i).elapsed now ≠ 0 ∧
          ((s.act i).ison = true → (s.act i).elapsed now < (s.act i).duration.toNat)))) ∨
    ((s.act i).offset.toNat ≤ now.toNat ∧
      ((s.taskStep i now = s.closeWindow i ∧ (s.act i).ison = true ∧ (s.act i).elapsed now ≠ 0 ∧
          (s.act i).duration.toNat ≤ (s.act i).elapsed now) ∨
        (s.taskStep i now = s.openWindow i ∧ (s.act i).ison = false ∧ (s.act i).elapsed now = 0 ∧
          (s.act i).duration.toNat ≠ 0) ∨
        (s.taskStep i now = (s.closeWindow i).openWindow i ∧ (s.act i).ison = true ∧ (s.act i).elapsed now = 0 ∧
          (s.act i).duration.toNat ≠ 0) ∨
        (s.taskStep i now = (s.openWindow i).closeWindow i ∧ (s.act i).ison = false ∧ (s.act i).elapsed now = 0 ∧
          (s.act i).duration.toNat = 0) ∨
        (s.taskStep i now = ((s.closeWindow i).openWindow i).closeWindow i ∧ (s.act i).ison = true ∧
          (s.act i).elapsed now = 0 ∧ (s.act i).duration.toNat = 0)))

/-- 42_sampler.md R164: the close of a SAMPLER's window puts one record of its `OPIN`, `TS`, `CNT` and `SUM` in the ring
and leaves the accumulators; the close of a TASK's window puts none (R171). Every other slot and every field outside
the ring is unchanged. -/
def Obligations.CloseWindowPutsRecord : Prop :=
  ∀ (s : State) (i : Nat), i < s.acts.length →
    ((s.act i).smp = false →
      s.closeWindow i = { s with acts := s.acts.set i { s.act i with ison := false } }) ∧
    ((s.act i).smp = true →
      (s.closeWindow i) = { s with
        acts := s.acts.set i { s.act i with ison := false }
        ovf := if s.space = 0 then true else s.ovf
        slots := (s.closeWindow i).slots
        wrPos := (s.wrPos + 1) % s.cfg.capacity } ∧
      ∀ k, (s.closeWindow i).slots.read k =
        if k = s.wrPos then
          some { pinWord := BitVec.ofNat 32 (s.act i).opin.toNat, timestamp := (s.act i).ts,
                 count := (s.act i).cnt, sum := (s.act i).sum }
        else s.slots.read k)

/-- 42_sampler.md R161: the open of a SAMPLER's window turns it `ON` with `TS`, `CNT` and `SUM` zero, and puts and draws
nothing; the open of a TASK's window turns it `ON` and changes nothing else (R171). -/
def Obligations.OpenWindowClearsAccumulators : Prop :=
  ∀ (s : State) (i : Nat), i < s.acts.length →
    ((s.act i).smp = true →
      s.openWindow i = { s with acts := s.acts.set i { s.act i with ison := true, ts := 0, cnt := 0, sum := 0 } }) ∧
    ((s.act i).smp = false → s.openWindow i = { s with acts := s.acts.set i { s.act i with ison := true } })

/-- 42_sampler.md R162, R168 and R169: one sample of a SAMPLER that is `ON`: the timestamp is drawn only while it is 0,
the count grows by one and the sum by a reading of `ADC_WIDTH` bits, both modulo 2^32; no other slot, no flag and no
part of the ring changes. The next reading the environment lists is the one added: how answers are listed and cut is
the model's choice (logs 5, 11). -/
def Obligations.SampleAccumulates : Prop :=
  ∀ (s : State) (i : Nat), i < s.acts.length →
    ∃ (ts raw : Word) (e : Env),
      s.sample i = { s with
        env := e
        acts := s.acts.set i { s.act i with
          ts := ts, cnt := (s.act i).cnt + 1, sum := (s.act i).sum + raw } } ∧
      ((s.act i).ts ≠ 0 → ts = (s.act i).ts ∧ e.absTime = s.env.absTime) ∧
      (∀ v rest, (s.act i).ts = 0 → s.env.absTime = v :: rest → ts = v ∧ e.absTime = rest) ∧
      raw.toNat < 2 ^ s.cfg.adcWidth ∧
      (∀ v rest, s.env.adc = v :: rest → raw.toNat = v.toNat % 2 ^ s.cfg.adcWidth ∧ e.adc = rest)

/-- 41_periodic_task.md R149: a whole update of a slot is its transitions and then, only for a SAMPLER that they leave
`ON`, one sample: the update that opens a window takes its first sample, and the one that closes a window takes none.
The transitions draw nothing. For a TASK the update changes its `ISON` and nothing else: no put, no draw
(42_sampler.md R171). -/
def Obligations.UpdateSwitchesThenSamples : Prop :=
  ∀ (s : State) (i : Nat) (now : Word), i < s.acts.length →
    (s.taskStep i now).env = s.env ∧
    ((s.act i).smp = false →
      s.actUpdate i now = s.taskStep i now ∧
      ∃ b, s.actUpdate i now = { s with acts := s.acts.set i { s.act i with ison := b } }) ∧
    ((s.act i).smp = true →
      (((s.taskStep i now).act i).ison = false → s.actUpdate i now = s.taskStep i now) ∧
      (((s.taskStep i now).act i).ison = true → s.actUpdate i now = (s.taskStep i now).sample i))

/-- 41_periodic_task.md R150: from START and without a clock wrap, a task is `ON` after the update of `now` exactly
inside its windows: START puts every task of the set in phase, and every tick keeps it there. -/
def Obligations.WindowsFollowPeriods : Prop :=
  (∀ (s t : State) (n i : Nat), s.acts.length = s.cfg.nAct → s.Configured → exec (.start n) s = .next t →
    t.resp = answers 0 0 0 0 → i < n → (t.act i).InPhase t.clock.toNat) ∧
  (∀ (s : State) (i : Nat), s.actn ≤ s.acts.length → i < s.actn → (s.act i).Valid →
    s.clock.toNat + 1 < 2 ^ 32 → (s.act i).InPhase s.clock.toNat →
      s.tick.clock.toNat = s.clock.toNat + 1 ∧ (s.tick.act i).InPhase s.tick.clock.toNat)

/-- 41_periodic_task.md R150: after `k` ticks from an accepted START, as long as the clock has not wrapped, `CLOCK` is
`k` and a task of the set is `ON` exactly when `OFFSET <= k`, `(k - OFFSET) mod PERIOD < DURATION`, and a window has
opened since START (with `OFFSET = 0` the first opens at `k = PERIOD`). -/
def Obligations.OnExactlyInsideWindows : Prop :=
  ∀ (s t : State) (n : Nat), s.Shape → s.Configured → exec (.start n) s = .next t → t.resp = answers 0 0 0 0 →
    ∀ k, k < 2 ^ 32 → ∀ i, i < n →
      (State.tick^[k] t).clock.toNat = k ∧
      (((State.tick^[k] t).act i).ison = true ↔
        (s.act i).offset.toNat ≤ k ∧
        (k - (s.act i).offset.toNat) % (s.act i).period.toNat < (s.act i).duration.toNat ∧
        (1 ≤ (s.act i).offset.toNat ∨ (s.act i).period.toNat ≤ k))

/-- 42_sampler.md R170: a SAMPLER in phase counts one sample for every update of its window, so the record its window
puts when it closes has `count = DURATION` and `pin = OPIN`, with the sum accumulated. -/
def Obligations.WindowRecordsCountDuration : Prop :=
  (∀ (s : State) (i : Nat), s.actn ≤ s.acts.length → i < s.actn → (s.act i).Valid → (s.act i).smp = true →
    s.clock.toNat + 1 < 2 ^ 32 → (s.act i).InPhase s.clock.toNat → (s.act i).InCount s.clock.toNat →
      (s.tick.act i).InCount s.tick.clock.toNat) ∧
  (∀ (s : State) (i c : Nat) (now : Word), i < s.acts.length → (s.act i).Valid → (s.act i).smp = true →
    (s.act i).InPhase c → (s.act i).InCount c → now.toNat = c + 1 → (s.act i).ison = true →
    ((s.act i).duration.toNat ≤ (s.act i).elapsed now ∨ (s.act i).elapsed now = 0) →
      (s.actUpdate i now).slots.read s.wrPos =
        some { pinWord := BitVec.ofNat 32 (s.act i).opin.toNat, timestamp := (s.act i).ts,
               count := (s.act i).duration, sum := (s.act i).sum } ∧
      (s.actUpdate i now).wrPos = (s.wrPos + 1) % s.cfg.capacity)

/-- 41_periodic_task.md R151 with 43_dispatcher.md R184: the clock wraps from `0xFFFFFFFF` to 0; a task of a later
offset then holds its state, and a task that is `ON` when `now` reaches its offset closes its window and opens a new
one. -/
def Obligations.ClockWrapHoldsWindows : Prop :=
  ∀ (s : State) (i : Nat), s.actn ≤ s.acts.length → i < s.actn →
    (s.clock = 0xFFFFFFFF → s.tick.clock = 0) ∧
    (s.clock = 0xFFFFFFFF → 1 ≤ (s.act i).offset.toNat → (s.tick.act i).ison = (s.act i).ison) ∧
    ((s.act i).ison = true → 1 ≤ (s.act i).duration.toNat →
      s.taskStep i (s.act i).offset = (s.closeWindow i).openWindow i)

/-! ## The tick (43_dispatcher.md) -/

/-- 43_dispatcher.md R181 and R182: a tick advances the clock by one modulo 2^32 and then updates every slot of the set
once with the new clock, in an order that puts every primary before any secondary and within each class follows the
slot index. -/
def Obligations.TickUpdatesPrimariesFirst : Prop :=
  ∀ s : State, ∃ order : List Nat,
    (∀ i, i ∈ order ↔ i < s.actn) ∧
    order.Pairwise (fun i j => ((s.act i).sec = (s.act j).sec ∧ i < j) ∨ ((s.act i).sec = false ∧ (s.act j).sec = true)) ∧
    s.tick = order.foldl (fun t i => t.actUpdate i (s.clock + 1)) { s with clock := s.clock + 1 }

/-- 43_dispatcher.md R181, the frame of a tick: `CLOCK` advances; the fields a tick never writes are unchanged; of the
slots only the run-time fields of those in the set may change; the ring is written at `WRPOS` and on, once for each
record put and nowhere else, with `OVF` set exactly if the puts are more than the free slots; and with no SAMPLER in
the set the environment is unchanged too (42_sampler.md R171). -/
def Obligations.TickFrame : Prop :=
  ∀ s : State, s.actn ≤ s.acts.length →
    (s.tick) = { s with
      clock := s.clock + 1
      ovf := s.tick.ovf
      wrPos := s.tick.wrPos
      slots := s.tick.slots
      acts := s.tick.acts
      env := s.tick.env } ∧
    s.tick.acts.length = s.acts.length ∧
    (∀ i, s.tick.act i = withRunTime (s.act i) (s.tick.act i)) ∧
    (∀ i, s.actn ≤ i → s.tick.act i = s.act i) ∧
    (s.ovf = true → s.tick.ovf = true) ∧
    (s.wrPos < s.cfg.capacity →
      s.tick.wrPos = (s.wrPos + s.tickPuts) % s.cfg.capacity ∧
      (∀ k, (∀ j, j < s.tickPuts → k ≠ (s.wrPos + j) % s.cfg.capacity) → s.tick.slots.read k = s.slots.read k) ∧
      (s.rdPos < s.cfg.capacity → (s.tick.ovf = true ↔ s.ovf = true ∨ s.space < s.tickPuts))) ∧
    ((∀ i, i < s.actn → (s.act i).smp = false) →
      s.tickPuts = 0 ∧ s.tick.ovf = s.ovf ∧ s.tick.wrPos = s.wrPos ∧ s.tick.env = s.env ∧
      ∀ k, s.tick.slots.read k = s.slots.read k)

/-! ## Whole-machine rules -/

/-- 10_state.md R48, the column of the host's commands: which field each command may write. Every field a command is
not named for is unchanged by it. `ERRCAUSE` is written by the commands that can be refused or fail; `CFGERR` and
`CMDERR` are set by refusals, `CFGERR` by one of ACTCFG alone (60_exceptions.md R242, R243), and cleared only by a CSRW to
`STATUS`. -/
def Obligations.HostCommandsWriteOnlyTheirFields : Prop :=
  ∀ (i : Instr) (s t : State), exec i s = .next t →
    (t.run ≠ s.run → (∃ n, i = .start n) ∨ i = .stop ∨ i = .init) ∧
    (t.tinit ≠ s.tinit → i = .init) ∧
    (t.fatal ≠ s.fatal → i = .init ∨ ∃ n, i = .start n) ∧
    (t.ovf ≠ s.ovf → s.ovf = true ∧ ∃ v, i = .csrw 0x000 v) ∧
    (t.unf ≠ s.unf → i = .get ∨ ∃ v, i = .csrw 0x000 v) ∧
    (t.clock ≠ s.clock → ∃ n, i = .start n) ∧
    (t.actn ≠ s.actn → i = .stop ∨ ∃ n, i = .start n) ∧
    (t.rdPos ≠ s.rdPos → i = .get ∨ i = .flush) ∧
    (t.errCause ≠ s.errCause → CanBeRefused i) ∧
    (t.cfgErr ≠ s.cfgErr → (s.cfgErr = false ∧ ∃ k, i = .actcfg k) ∨
      (s.cfgErr = true ∧ ∃ v, i = .csrw 0x000 v ∧ v.getLsbD 5 = true)) ∧
    (t.cmdErr ≠ s.cmdErr → (s.cmdErr = false ∧ CanBeRefused i) ∨
      (s.cmdErr = true ∧ ∃ v, i = .csrw 0x000 v ∧ v.getLsbD 6 = true)) ∧
    t.wrPos = s.wrPos ∧ (∀ k, t.slots.read k = s.slots.read k) ∧
    (t.cfgOffset ≠ s.cfgOffset → ∃ v, i = .csrw 0x010 v) ∧
    (t.cfgPeriod ≠ s.cfgPeriod → ∃ v, i = .csrw 0x011 v) ∧
    (t.cfgDuration ≠ s.cfgDuration → ∃ v, i = .csrw 0x012 v) ∧
    (t.cfgFlags ≠ s.cfgFlags → ∃ v, i = .csrw 0x013 v) ∧
    (∀ k, t.act k ≠ withRunTime (s.act k) (t.act k) → i = .actcfg k) ∧
    (∀ k, (t.act k).ison ≠ (s.act k).ison → i = .actcfg k ∨ i = .stop ∨ ∃ n, i = .start n) ∧
    (∀ k, ((t.act k).ts ≠ (s.act k).ts ∨ (t.act k).cnt ≠ (s.act k).cnt ∨ (t.act k).sum ≠ (s.act k).sum) →
      i = .actcfg k ∨ ∃ n, i = .start n) ∧
    t.cfg = s.cfg ∧ t.agenda = s.agenda

/-- 10_state.md R28 and 30_encoding.md R80: a command is carried out and leaves the error report as it was, but for
the flags a CSRW to `STATUS` clears, or it is not carried out: then every response word is 0, `ERRCAUSE` is a code of
60_exceptions.md R242, and the flag of R243 is set and no other. -/
def Obligations.RefusalsAndResponses : Prop :=
  ∀ (i : Instr) (s t : State), exec i s = .next t →
    ((∃ r0 r1 r2 r3, t.resp = answers r0 r1 r2 r3) ∧ t.errCause = s.errCause ∧
      (t.cfgErr = true → s.cfgErr = true) ∧ (t.cmdErr = true → s.cmdErr = true)) ∨
    (t.resp = notDone ∧ 0x03 ≤ t.errCause.toNat ∧ t.errCause.toNat ≤ 0x0F ∧
      ((t.errCause = 0x0A ∨ t.errCause = 0x0B ∨ t.errCause = 0x0C ∨ t.errCause = 0x0D) →
        t.cfgErr = true ∧ t.cmdErr = s.cmdErr) ∧
      (¬ (t.errCause = 0x0A ∨ t.errCause = 0x0B ∨ t.errCause = 0x0C ∨ t.errCause = 0x0D) →
        t.cmdErr = true ∧ t.cfgErr = s.cfgErr))

/-- 10_state.md R24 to R27: a sticky flag goes from 1 to 0 only by a CSRW to `STATUS` with its bit set, or by reset. -/
def Obligations.StickyFlagsNeedClearing : Prop :=
  ∀ s t : State, step s = .next t →
    (s.ovf = true → t.ovf = false → ResetNext s ∨ StatusClearNext s 3) ∧
    (s.unf = true → t.unf = false → ResetNext s ∨ StatusClearNext s 4) ∧
    (s.cfgErr = true → t.cfgErr = false → ResetNext s ∨ StatusClearNext s 5) ∧
    (s.cmdErr = true → t.cmdErr = false → ResetNext s ∨ StatusClearNext s 6)

/-- 10_state.md R22 and R23: `FATAL` and `TINIT` go from 1 to 0 only by reset, and while `FATAL = 1` no step sets
`RUN`. -/
def Obligations.FatalAndInitialisedUntilReset : Prop :=
  ∀ s t : State, step s = .next t → ¬ ResetNext s →
    (s.fatal = true → t.fatal = true ∧ (s.run = false → t.run = false)) ∧ (s.tinit = true → t.tinit = true)

/-! ## Invariants -/

/-- Every step keeps the form of a state: parameters unchanged, one slot per activity, `ACTN`, `RDPOS` and `WRPOS` in
range, the slot store canonical and within `CAPACITY` (10_state.md R30, R31, R32). -/
def Obligations.StepsKeepShape : Prop :=
  ∀ s t : State, s.Shape → step s = .next t → t.Shape ∧ t.cfg = s.cfg

/-- 43_dispatcher.md R190 (a) and (b): every step keeps them. -/
def Obligations.StepsKeepDispatchInvariants : Prop :=
  ∀ s t : State, s.Dispatching → step s = .next t → t.Dispatching

/-- Every step keeps what the slots and the slot store may hold: a configured slot holds only values ACTCFG accepts
(10_state.md R34), the accumulators of a TASK stay 0 (R36), and a stored record's pin word has bits 31:8 clear
(20_memory.md R61). -/
def Obligations.StepsKeepSlotContents : Prop :=
  ∀ s t : State, s.Configured → s.TaskIdle → s.PinWords → step s = .next t →
    t.Configured ∧ t.TaskIdle ∧ t.PinWords

/-- Every step keeps the error report legal: `ERRCAUSE` takes only the codes of 60_exceptions.md R242, and is 0 only
while no flag and no `FATAL` is set by a refusal (10_state.md R28). -/
def Obligations.StepsKeepErrorReport : Prop :=
  ∀ s t : State, s.Reporting → step s = .next t → t.Reporting

/-- 60_exceptions.md R257: in a fair infinite run every command of HOST's program is issued, in its place; and if
`RUN = 1` from some point on, ticks are taken without end, so that with neither a START nor a reset from there on
`CLOCK` runs through every value that follows. The form of a run is the model's choice (log 2). That a command's place
in the program is the number of commands issued before it, so that a reset in the run does not restart the program, is
the model's inference (log 13); 70_reset_and_hazards.md R270 says only that HOST may issue its first command then. -/
def Obligations.FairRunsIssueAndTick : Prop :=
  ∀ r : Run, r.Infinite → r.Fair →
    (∀ k cmd wdata, (∀ j, j < k → r.program j ≠ none) → r.program k = some (cmd, wdata) →
      ∃ m, r.issued m = k ∧ r.event m = .command cmd wdata) ∧
    (∀ n, (∀ m, n ≤ m → (r.state m).run = true) →
      (∀ m, ∃ l, m ≤ l ∧ r.event l = .tick) ∧
      ((∀ m cmd wdata k, n ≤ m → r.event m = .command cmd wdata → decode cmd wdata ≠ .instr (.start k)) →
        (∀ m, n ≤ m → r.event m ≠ .reset) →
          ∀ d : Nat, ∃ m, n ≤ m ∧ (r.state m).clock = (r.state n).clock + BitVec.ofNat 32 d))

/-- 60_exceptions.md R257 and 00_scope.md R8: whatever commands HOST's program holds without end (polling among them),
and from whatever state, there is a fair infinite run that issues them. The form of a run is the model's choice
(log 2), and how its commands are numbered the model's inference (log 13). -/
def Obligations.EveryEndlessProgramHasFairRun : Prop :=
  ∀ (s : State) (p : Nat → Word × Word),
    ∃ r : Run, r.state 0 = s ∧ (∀ k, r.program k = some (p k)) ∧ r.Infinite ∧ r.Fair

/-! ## The environment -/

/-- 42_sampler.md R166 and R167: a reading has `ADC_WIDTH` bits, and every such reading and every 32-bit time is what
some environment answers next; 00_scope.md R7: the timer fails only if `TIMER_CAN_FAIL`, and then either answer is
possible. How the environment is held is the model's choice (logs 5, 11). -/
def Obligations.DrawsTakeEveryValue : Prop :=
  ∀ (s : State) (i : Nat),
    (s.adcAnswer i).toNat < 2 ^ s.cfg.adcWidth ∧
    (∀ v : Word, v.toNat < 2 ^ s.cfg.adcWidth →
      ∃ e : Env, ({ s with env := e } : State).adcAnswer i = v) ∧
    (∀ v : Word, ∃ e : Env, ({ s with env := e } : State).absTimeAnswer i = v) ∧
    (s.cfg.timerCanFail = false → s.tfailAnswer = false) ∧
    (s.cfg.timerCanFail = true → ∀ b : Bool, ∃ e : Env, ({ s with env := e } : State).tfailAnswer = b)
end

