-- ==== Sys2Proof/Laws/Memory.lean ====
section
/-! SUPPORT. The slot store: a read after a write, the canonical form and the range of indices. -/

namespace Sys2Proof.Machine

@[simp] theorem Memory.read_nil (k : Nat) : Memory.read k [] = none := rfl

theorem Memory.read_write_same (k : Nat) (rec : SampleRecord) (m : Memory) :
    Memory.read k (Memory.write k rec m) = some rec := by
  induction m with
  | nil => simp [Memory.write, Memory.read]
  | cons x rest ih =>
    obtain ⟨j, r⟩ := x
    simp only [Memory.write]
    split
    · simp [Memory.read]
    · split
      · simp [Memory.read]
      · rename_i h
        simp [Memory.read, h, ih]

theorem Memory.read_write_ne {j k : Nat} (h : j ≠ k) (rec : SampleRecord) (m : Memory) :
    Memory.read j (Memory.write k rec m) = Memory.read j m := by
  induction m with
  | nil => simp [Memory.write, Memory.read, h]
  | cons x rest ih =>
    obtain ⟨i, r⟩ := x
    simp only [Memory.write]
    split
    · simp [Memory.read, h]
    · split
      · rename_i hk
        subst hk
        simp [Memory.read, h]
      · simp [Memory.read, ih]

/-- What a read after a write gives, in one line. -/
theorem Memory.read_write (j k : Nat) (rec : SampleRecord) (m : Memory) :
    Memory.read j (Memory.write k rec m) = if j = k then some rec else Memory.read j m := by
  split
  · rename_i h; rw [h, Memory.read_write_same]
  · rename_i h; rw [Memory.read_write_ne h]

theorem Memory.mem_write {k : Nat} {rec : SampleRecord} {m : Memory} {x : Nat × SampleRecord}
    (h : x ∈ Memory.write k rec m) : x = (k, rec) ∨ x ∈ m := by
  induction m with
  | nil => simp [Memory.write] at h; exact .inl h
  | cons y rest ih =>
    obtain ⟨j, r⟩ := y
    simp only [Memory.write] at h
    split at h
    · simp only [List.mem_cons] at h ⊢; tauto
    · split at h
      · simp only [List.mem_cons] at h ⊢; tauto
      · simp only [List.mem_cons] at h ⊢
        rcases h with h | h
        · tauto
        · rcases ih h with h | h <;> tauto

theorem Memory.wf_write {k : Nat} {rec : SampleRecord} {m : Memory} (h : Memory.wf m) :
    Memory.wf (Memory.write k rec m) := by
  induction m with
  | nil => simp [Memory.write, Memory.wf]
  | cons y rest ih =>
    obtain ⟨j, r⟩ := y
    have hr := List.pairwise_cons.mp h
    simp only [Memory.write]
    split
    · rename_i hlt
      refine List.pairwise_cons.mpr ⟨fun x hx => ?_, h⟩
      rcases List.mem_cons.mp hx with rfl | hx
      · exact hlt
      · exact lt_trans hlt (hr.1 x hx)
    · split
      · rename_i heq
        subst heq
        exact List.pairwise_cons.mpr ⟨hr.1, hr.2⟩
      · rename_i h1 h2
        refine List.pairwise_cons.mpr ⟨fun x hx => ?_, ih hr.2⟩
        rcases Memory.mem_write hx with rfl | hx
        · simp only; omega
        · exact hr.1 x hx

theorem Memory.lt_write {k n : Nat} {rec : SampleRecord} {m : Memory} (hk : k < n)
    (h : ∀ x ∈ m, x.1 < n) : ∀ x ∈ Memory.write k rec m, x.1 < n := by
  intro x hx
  rcases Memory.mem_write hx with rfl | hx
  · exact hk
  · exact h x hx

/-- The slot store right after reset is in canonical form. -/
theorem Memory.reset_wf (cfg : Params) (agenda : List Event) (env : Env) :
    Memory.wf (State.afterReset cfg agenda env).slots := List.Pairwise.nil

end Sys2Proof.Machine
end

