-- ==== Sys2Proof/Laws/State.lean ====
section
/-! SUPPORT. One lemma per field of State and per named update of it, so that no later proof unfolds an update. -/

namespace Sys2Proof.Machine

/-! ### `State.setAct`: `A[i] <- a` writes the activity array alone. -/

@[simp] theorem State.setAct_run (s : State) (i : Nat) (a : Activity) : (s.setAct i a).run = s.run := rfl
@[simp] theorem State.setAct_tinit (s : State) (i : Nat) (a : Activity) : (s.setAct i a).tinit = s.tinit := rfl
@[simp] theorem State.setAct_fatal (s : State) (i : Nat) (a : Activity) : (s.setAct i a).fatal = s.fatal := rfl
@[simp] theorem State.setAct_ovf (s : State) (i : Nat) (a : Activity) : (s.setAct i a).ovf = s.ovf := rfl
@[simp] theorem State.setAct_unf (s : State) (i : Nat) (a : Activity) : (s.setAct i a).unf = s.unf := rfl
@[simp] theorem State.setAct_cfgErr (s : State) (i : Nat) (a : Activity) : (s.setAct i a).cfgErr = s.cfgErr := rfl
@[simp] theorem State.setAct_cmdErr (s : State) (i : Nat) (a : Activity) : (s.setAct i a).cmdErr = s.cmdErr := rfl
@[simp] theorem State.setAct_errCause (s : State) (i : Nat) (a : Activity) : (s.setAct i a).errCause = s.errCause := rfl
@[simp] theorem State.setAct_clock (s : State) (i : Nat) (a : Activity) : (s.setAct i a).clock = s.clock := rfl
@[simp] theorem State.setAct_actn (s : State) (i : Nat) (a : Activity) : (s.setAct i a).actn = s.actn := rfl
@[simp] theorem State.setAct_rdPos (s : State) (i : Nat) (a : Activity) : (s.setAct i a).rdPos = s.rdPos := rfl
@[simp] theorem State.setAct_wrPos (s : State) (i : Nat) (a : Activity) : (s.setAct i a).wrPos = s.wrPos := rfl
@[simp] theorem State.setAct_slots (s : State) (i : Nat) (a : Activity) : (s.setAct i a).slots = s.slots := rfl
@[simp] theorem State.setAct_cfgOffset (s : State) (i : Nat) (a : Activity) : (s.setAct i a).cfgOffset = s.cfgOffset := rfl
@[simp] theorem State.setAct_cfgPeriod (s : State) (i : Nat) (a : Activity) : (s.setAct i a).cfgPeriod = s.cfgPeriod := rfl
@[simp] theorem State.setAct_cfgDuration (s : State) (i : Nat) (a : Activity) : (s.setAct i a).cfgDuration = s.cfgDuration := rfl
@[simp] theorem State.setAct_cfgFlags (s : State) (i : Nat) (a : Activity) : (s.setAct i a).cfgFlags = s.cfgFlags := rfl
@[simp] theorem State.setAct_acts (s : State) (i : Nat) (a : Activity) : (s.setAct i a).acts = s.acts.set i a := rfl
@[simp] theorem State.setAct_cfg (s : State) (i : Nat) (a : Activity) : (s.setAct i a).cfg = s.cfg := rfl
@[simp] theorem State.setAct_resp (s : State) (i : Nat) (a : Activity) : (s.setAct i a).resp = s.resp := rfl
@[simp] theorem State.setAct_agenda (s : State) (i : Nat) (a : Activity) : (s.setAct i a).agenda = s.agenda := rfl
@[simp] theorem State.setAct_env (s : State) (i : Nat) (a : Activity) : (s.setAct i a).env = s.env := rfl

/-! ### `State.respond`: A response writes the host port alone. -/

@[simp] theorem State.respond_run (s : State) (r0 r1 r2 r3 : Word) : (s.respond r0 r1 r2 r3).run = s.run := rfl
@[simp] theorem State.respond_tinit (s : State) (r0 r1 r2 r3 : Word) : (s.respond r0 r1 r2 r3).tinit = s.tinit := rfl
@[simp] theorem State.respond_fatal (s : State) (r0 r1 r2 r3 : Word) : (s.respond r0 r1 r2 r3).fatal = s.fatal := rfl
@[simp] theorem State.respond_ovf (s : State) (r0 r1 r2 r3 : Word) : (s.respond r0 r1 r2 r3).ovf = s.ovf := rfl
@[simp] theorem State.respond_unf (s : State) (r0 r1 r2 r3 : Word) : (s.respond r0 r1 r2 r3).unf = s.unf := rfl
@[simp] theorem State.respond_cfgErr (s : State) (r0 r1 r2 r3 : Word) : (s.respond r0 r1 r2 r3).cfgErr = s.cfgErr := rfl
@[simp] theorem State.respond_cmdErr (s : State) (r0 r1 r2 r3 : Word) : (s.respond r0 r1 r2 r3).cmdErr = s.cmdErr := rfl
@[simp] theorem State.respond_errCause (s : State) (r0 r1 r2 r3 : Word) : (s.respond r0 r1 r2 r3).errCause = s.errCause := rfl
@[simp] theorem State.respond_clock (s : State) (r0 r1 r2 r3 : Word) : (s.respond r0 r1 r2 r3).clock = s.clock := rfl
@[simp] theorem State.respond_actn (s : State) (r0 r1 r2 r3 : Word) : (s.respond r0 r1 r2 r3).actn = s.actn := rfl
@[simp] theorem State.respond_rdPos (s : State) (r0 r1 r2 r3 : Word) : (s.respond r0 r1 r2 r3).rdPos = s.rdPos := rfl
@[simp] theorem State.respond_wrPos (s : State) (r0 r1 r2 r3 : Word) : (s.respond r0 r1 r2 r3).wrPos = s.wrPos := rfl
@[simp] theorem State.respond_slots (s : State) (r0 r1 r2 r3 : Word) : (s.respond r0 r1 r2 r3).slots = s.slots := rfl
@[simp] theorem State.respond_cfgOffset (s : State) (r0 r1 r2 r3 : Word) : (s.respond r0 r1 r2 r3).cfgOffset = s.cfgOffset := rfl
@[simp] theorem State.respond_cfgPeriod (s : State) (r0 r1 r2 r3 : Word) : (s.respond r0 r1 r2 r3).cfgPeriod = s.cfgPeriod := rfl
@[simp] theorem State.respond_cfgDuration (s : State) (r0 r1 r2 r3 : Word) : (s.respond r0 r1 r2 r3).cfgDuration =
    s.cfgDuration := rfl
@[simp] theorem State.respond_cfgFlags (s : State) (r0 r1 r2 r3 : Word) : (s.respond r0 r1 r2 r3).cfgFlags = s.cfgFlags := rfl
@[simp] theorem State.respond_acts (s : State) (r0 r1 r2 r3 : Word) : (s.respond r0 r1 r2 r3).acts = s.acts := rfl
@[simp] theorem State.respond_cfg (s : State) (r0 r1 r2 r3 : Word) : (s.respond r0 r1 r2 r3).cfg = s.cfg := rfl
@[simp] theorem State.respond_resp (s : State) (r0 r1 r2 r3 : Word) : (s.respond r0 r1 r2 r3).resp =
    some { ok := true, r0 := r0, r1 := r1, r2 := r2, r3 := r3 } := rfl
@[simp] theorem State.respond_agenda (s : State) (r0 r1 r2 r3 : Word) : (s.respond r0 r1 r2 r3).agenda = s.agenda := rfl
@[simp] theorem State.respond_env (s : State) (r0 r1 r2 r3 : Word) : (s.respond r0 r1 r2 r3).env = s.env := rfl

/-! ### `State.respondRefused`: A refused response writes the host port alone. -/

@[simp] theorem State.respondRefused_run (s : State) : (s.respondRefused).run = s.run := rfl
@[simp] theorem State.respondRefused_tinit (s : State) : (s.respondRefused).tinit = s.tinit := rfl
@[simp] theorem State.respondRefused_fatal (s : State) : (s.respondRefused).fatal = s.fatal := rfl
@[simp] theorem State.respondRefused_ovf (s : State) : (s.respondRefused).ovf = s.ovf := rfl
@[simp] theorem State.respondRefused_unf (s : State) : (s.respondRefused).unf = s.unf := rfl
@[simp] theorem State.respondRefused_cfgErr (s : State) : (s.respondRefused).cfgErr = s.cfgErr := rfl
@[simp] theorem State.respondRefused_cmdErr (s : State) : (s.respondRefused).cmdErr = s.cmdErr := rfl
@[simp] theorem State.respondRefused_errCause (s : State) : (s.respondRefused).errCause = s.errCause := rfl
@[simp] theorem State.respondRefused_clock (s : State) : (s.respondRefused).clock = s.clock := rfl
@[simp] theorem State.respondRefused_actn (s : State) : (s.respondRefused).actn = s.actn := rfl
@[simp] theorem State.respondRefused_rdPos (s : State) : (s.respondRefused).rdPos = s.rdPos := rfl
@[simp] theorem State.respondRefused_wrPos (s : State) : (s.respondRefused).wrPos = s.wrPos := rfl
@[simp] theorem State.respondRefused_slots (s : State) : (s.respondRefused).slots = s.slots := rfl
@[simp] theorem State.respondRefused_cfgOffset (s : State) : (s.respondRefused).cfgOffset = s.cfgOffset := rfl
@[simp] theorem State.respondRefused_cfgPeriod (s : State) : (s.respondRefused).cfgPeriod = s.cfgPeriod := rfl
@[simp] theorem State.respondRefused_cfgDuration (s : State) : (s.respondRefused).cfgDuration = s.cfgDuration := rfl
@[simp] theorem State.respondRefused_cfgFlags (s : State) : (s.respondRefused).cfgFlags = s.cfgFlags := rfl
@[simp] theorem State.respondRefused_acts (s : State) : (s.respondRefused).acts = s.acts := rfl
@[simp] theorem State.respondRefused_cfg (s : State) : (s.respondRefused).cfg = s.cfg := rfl
@[simp] theorem State.respondRefused_resp (s : State) : (s.respondRefused).resp =
    some { ok := false, r0 := 0, r1 := 0, r2 := 0, r3 := 0 } := rfl
@[simp] theorem State.respondRefused_agenda (s : State) : (s.respondRefused).agenda = s.agenda := rfl
@[simp] theorem State.respondRefused_env (s : State) : (s.respondRefused).env = s.env := rfl

/-! ### `State.report`: The error report writes `ERRCAUSE`, `CFGERR` and `CMDERR` alone. -/

@[simp] theorem State.report_run (s : State) (c : Cause) : (s.report c).run = s.run := rfl
@[simp] theorem State.report_tinit (s : State) (c : Cause) : (s.report c).tinit = s.tinit := rfl
@[simp] theorem State.report_fatal (s : State) (c : Cause) : (s.report c).fatal = s.fatal := rfl
@[simp] theorem State.report_ovf (s : State) (c : Cause) : (s.report c).ovf = s.ovf := rfl
@[simp] theorem State.report_unf (s : State) (c : Cause) : (s.report c).unf = s.unf := rfl
@[simp] theorem State.report_cfgErr (s : State) (c : Cause) : (s.report c).cfgErr = (s.cfgErr || c.isConfig) := rfl
@[simp] theorem State.report_cmdErr (s : State) (c : Cause) : (s.report c).cmdErr = (s.cmdErr || !c.isConfig) := rfl
@[simp] theorem State.report_errCause (s : State) (c : Cause) : (s.report c).errCause = c.code := rfl
@[simp] theorem State.report_clock (s : State) (c : Cause) : (s.report c).clock = s.clock := rfl
@[simp] theorem State.report_actn (s : State) (c : Cause) : (s.report c).actn = s.actn := rfl
@[simp] theorem State.report_rdPos (s : State) (c : Cause) : (s.report c).rdPos = s.rdPos := rfl
@[simp] theorem State.report_wrPos (s : State) (c : Cause) : (s.report c).wrPos = s.wrPos := rfl
@[simp] theorem State.report_slots (s : State) (c : Cause) : (s.report c).slots = s.slots := rfl
@[simp] theorem State.report_cfgOffset (s : State) (c : Cause) : (s.report c).cfgOffset = s.cfgOffset := rfl
@[simp] theorem State.report_cfgPeriod (s : State) (c : Cause) : (s.report c).cfgPeriod = s.cfgPeriod := rfl
@[simp] theorem State.report_cfgDuration (s : State) (c : Cause) : (s.report c).cfgDuration = s.cfgDuration := rfl
@[simp] theorem State.report_cfgFlags (s : State) (c : Cause) : (s.report c).cfgFlags = s.cfgFlags := rfl
@[simp] theorem State.report_acts (s : State) (c : Cause) : (s.report c).acts = s.acts := rfl
@[simp] theorem State.report_cfg (s : State) (c : Cause) : (s.report c).cfg = s.cfg := rfl
@[simp] theorem State.report_resp (s : State) (c : Cause) : (s.report c).resp = s.resp := rfl
@[simp] theorem State.report_agenda (s : State) (c : Cause) : (s.report c).agenda = s.agenda := rfl
@[simp] theorem State.report_env (s : State) (c : Cause) : (s.report c).env = s.env := rfl

/-! ### `State.refuse`: A refusal (60_exceptions.md R241) writes the error report and the response. -/

@[simp] theorem State.refuse_run (s : State) (c : Cause) : (s.refuse c).run = s.run := rfl
@[simp] theorem State.refuse_tinit (s : State) (c : Cause) : (s.refuse c).tinit = s.tinit := rfl
@[simp] theorem State.refuse_fatal (s : State) (c : Cause) : (s.refuse c).fatal = s.fatal := rfl
@[simp] theorem State.refuse_ovf (s : State) (c : Cause) : (s.refuse c).ovf = s.ovf := rfl
@[simp] theorem State.refuse_unf (s : State) (c : Cause) : (s.refuse c).unf = s.unf := rfl
@[simp] theorem State.refuse_cfgErr (s : State) (c : Cause) : (s.refuse c).cfgErr = (s.cfgErr || c.isConfig) := rfl
@[simp] theorem State.refuse_cmdErr (s : State) (c : Cause) : (s.refuse c).cmdErr = (s.cmdErr || !c.isConfig) := rfl
@[simp] theorem State.refuse_errCause (s : State) (c : Cause) : (s.refuse c).errCause = c.code := rfl
@[simp] theorem State.refuse_clock (s : State) (c : Cause) : (s.refuse c).clock = s.clock := rfl
@[simp] theorem State.refuse_actn (s : State) (c : Cause) : (s.refuse c).actn = s.actn := rfl
@[simp] theorem State.refuse_rdPos (s : State) (c : Cause) : (s.refuse c).rdPos = s.rdPos := rfl
@[simp] theorem State.refuse_wrPos (s : State) (c : Cause) : (s.refuse c).wrPos = s.wrPos := rfl
@[simp] theorem State.refuse_slots (s : State) (c : Cause) : (s.refuse c).slots = s.slots := rfl
@[simp] theorem State.refuse_cfgOffset (s : State) (c : Cause) : (s.refuse c).cfgOffset = s.cfgOffset := rfl
@[simp] theorem State.refuse_cfgPeriod (s : State) (c : Cause) : (s.refuse c).cfgPeriod = s.cfgPeriod := rfl
@[simp] theorem State.refuse_cfgDuration (s : State) (c : Cause) : (s.refuse c).cfgDuration = s.cfgDuration := rfl
@[simp] theorem State.refuse_cfgFlags (s : State) (c : Cause) : (s.refuse c).cfgFlags = s.cfgFlags := rfl
@[simp] theorem State.refuse_acts (s : State) (c : Cause) : (s.refuse c).acts = s.acts := rfl
@[simp] theorem State.refuse_cfg (s : State) (c : Cause) : (s.refuse c).cfg = s.cfg := rfl
@[simp] theorem State.refuse_resp (s : State) (c : Cause) : (s.refuse c).resp =
    some { ok := false, r0 := 0, r1 := 0, r2 := 0, r3 := 0 } := rfl
@[simp] theorem State.refuse_agenda (s : State) (c : Cause) : (s.refuse c).agenda = s.agenda := rfl
@[simp] theorem State.refuse_env (s : State) (c : Cause) : (s.refuse c).env = s.env := rfl

/-! ### `State.failTimer`: A timer failure (60_exceptions.md R247). -/

@[simp] theorem State.failTimer_run (s : State) : (s.failTimer).run = false := rfl
@[simp] theorem State.failTimer_tinit (s : State) : (s.failTimer).tinit = s.tinit := rfl
@[simp] theorem State.failTimer_fatal (s : State) : (s.failTimer).fatal = true := rfl
@[simp] theorem State.failTimer_ovf (s : State) : (s.failTimer).ovf = s.ovf := rfl
@[simp] theorem State.failTimer_unf (s : State) : (s.failTimer).unf = s.unf := rfl
@[simp] theorem State.failTimer_cfgErr (s : State) : (s.failTimer).cfgErr = (s.cfgErr || false) := rfl
@[simp] theorem State.failTimer_cmdErr (s : State) : (s.failTimer).cmdErr = (s.cmdErr || true) := rfl
@[simp] theorem State.failTimer_errCause (s : State) : (s.failTimer).errCause = 0x0F#8 := rfl
@[simp] theorem State.failTimer_clock (s : State) : (s.failTimer).clock = s.clock := rfl
@[simp] theorem State.failTimer_actn (s : State) : (s.failTimer).actn = s.actn := rfl
@[simp] theorem State.failTimer_rdPos (s : State) : (s.failTimer).rdPos = s.rdPos := rfl
@[simp] theorem State.failTimer_wrPos (s : State) : (s.failTimer).wrPos = s.wrPos := rfl
@[simp] theorem State.failTimer_slots (s : State) : (s.failTimer).slots = s.slots := rfl
@[simp] theorem State.failTimer_cfgOffset (s : State) : (s.failTimer).cfgOffset = s.cfgOffset := rfl
@[simp] theorem State.failTimer_cfgPeriod (s : State) : (s.failTimer).cfgPeriod = s.cfgPeriod := rfl
@[simp] theorem State.failTimer_cfgDuration (s : State) : (s.failTimer).cfgDuration = s.cfgDuration := rfl
@[simp] theorem State.failTimer_cfgFlags (s : State) : (s.failTimer).cfgFlags = s.cfgFlags := rfl
@[simp] theorem State.failTimer_acts (s : State) : (s.failTimer).acts = s.acts := rfl
@[simp] theorem State.failTimer_cfg (s : State) : (s.failTimer).cfg = s.cfg := rfl
@[simp] theorem State.failTimer_resp (s : State) : (s.failTimer).resp =
    some { ok := false, r0 := 0, r1 := 0, r2 := 0, r3 := 0 } := rfl
@[simp] theorem State.failTimer_agenda (s : State) : (s.failTimer).agenda = s.agenda := rfl
@[simp] theorem State.failTimer_env (s : State) : (s.failTimer).env = s.env := rfl

/-! ### `State.rbPut`: RbPut (40_ringbuffer.md R114) writes `OVF`, the slot store and `WRPOS` alone. -/

@[simp] theorem State.rbPut_run (s : State) (rec : SampleRecord) : (s.rbPut rec).run = s.run := rfl
@[simp] theorem State.rbPut_tinit (s : State) (rec : SampleRecord) : (s.rbPut rec).tinit = s.tinit := rfl
@[simp] theorem State.rbPut_fatal (s : State) (rec : SampleRecord) : (s.rbPut rec).fatal = s.fatal := rfl
@[simp] theorem State.rbPut_ovf (s : State) (rec : SampleRecord) : (s.rbPut rec).ovf = (s.ovf || s.space == 0) := rfl
@[simp] theorem State.rbPut_unf (s : State) (rec : SampleRecord) : (s.rbPut rec).unf = s.unf := rfl
@[simp] theorem State.rbPut_cfgErr (s : State) (rec : SampleRecord) : (s.rbPut rec).cfgErr = s.cfgErr := rfl
@[simp] theorem State.rbPut_cmdErr (s : State) (rec : SampleRecord) : (s.rbPut rec).cmdErr = s.cmdErr := rfl
@[simp] theorem State.rbPut_errCause (s : State) (rec : SampleRecord) : (s.rbPut rec).errCause = s.errCause := rfl
@[simp] theorem State.rbPut_clock (s : State) (rec : SampleRecord) : (s.rbPut rec).clock = s.clock := rfl
@[simp] theorem State.rbPut_actn (s : State) (rec : SampleRecord) : (s.rbPut rec).actn = s.actn := rfl
@[simp] theorem State.rbPut_rdPos (s : State) (rec : SampleRecord) : (s.rbPut rec).rdPos = s.rdPos := rfl
@[simp] theorem State.rbPut_wrPos (s : State) (rec : SampleRecord) : (s.rbPut rec).wrPos = (s.wrPos + 1) % s.cfg.capacity := rfl
@[simp] theorem State.rbPut_slots (s : State) (rec : SampleRecord) : (s.rbPut rec).slots = s.slots.write s.wrPos rec := rfl
@[simp] theorem State.rbPut_cfgOffset (s : State) (rec : SampleRecord) : (s.rbPut rec).cfgOffset = s.cfgOffset := rfl
@[simp] theorem State.rbPut_cfgPeriod (s : State) (rec : SampleRecord) : (s.rbPut rec).cfgPeriod = s.cfgPeriod := rfl
@[simp] theorem State.rbPut_cfgDuration (s : State) (rec : SampleRecord) : (s.rbPut rec).cfgDuration = s.cfgDuration := rfl
@[simp] theorem State.rbPut_cfgFlags (s : State) (rec : SampleRecord) : (s.rbPut rec).cfgFlags = s.cfgFlags := rfl
@[simp] theorem State.rbPut_acts (s : State) (rec : SampleRecord) : (s.rbPut rec).acts = s.acts := rfl
@[simp] theorem State.rbPut_cfg (s : State) (rec : SampleRecord) : (s.rbPut rec).cfg = s.cfg := rfl
@[simp] theorem State.rbPut_resp (s : State) (rec : SampleRecord) : (s.rbPut rec).resp = s.resp := rfl
@[simp] theorem State.rbPut_agenda (s : State) (rec : SampleRecord) : (s.rbPut rec).agenda = s.agenda := rfl
@[simp] theorem State.rbPut_env (s : State) (rec : SampleRecord) : (s.rbPut rec).env = s.env := rfl

/-! ### `State.afterAdc`: A draw writes the environment alone. -/

@[simp] theorem State.afterAdc_run (s : State) (i : Nat) : (s.afterAdc i).run = s.run := rfl
@[simp] theorem State.afterAdc_tinit (s : State) (i : Nat) : (s.afterAdc i).tinit = s.tinit := rfl
@[simp] theorem State.afterAdc_fatal (s : State) (i : Nat) : (s.afterAdc i).fatal = s.fatal := rfl
@[simp] theorem State.afterAdc_ovf (s : State) (i : Nat) : (s.afterAdc i).ovf = s.ovf := rfl
@[simp] theorem State.afterAdc_unf (s : State) (i : Nat) : (s.afterAdc i).unf = s.unf := rfl
@[simp] theorem State.afterAdc_cfgErr (s : State) (i : Nat) : (s.afterAdc i).cfgErr = s.cfgErr := rfl
@[simp] theorem State.afterAdc_cmdErr (s : State) (i : Nat) : (s.afterAdc i).cmdErr = s.cmdErr := rfl
@[simp] theorem State.afterAdc_errCause (s : State) (i : Nat) : (s.afterAdc i).errCause = s.errCause := rfl
@[simp] theorem State.afterAdc_clock (s : State) (i : Nat) : (s.afterAdc i).clock = s.clock := rfl
@[simp] theorem State.afterAdc_actn (s : State) (i : Nat) : (s.afterAdc i).actn = s.actn := rfl
@[simp] theorem State.afterAdc_rdPos (s : State) (i : Nat) : (s.afterAdc i).rdPos = s.rdPos := rfl
@[simp] theorem State.afterAdc_wrPos (s : State) (i : Nat) : (s.afterAdc i).wrPos = s.wrPos := rfl
@[simp] theorem State.afterAdc_slots (s : State) (i : Nat) : (s.afterAdc i).slots = s.slots := rfl
@[simp] theorem State.afterAdc_cfgOffset (s : State) (i : Nat) : (s.afterAdc i).cfgOffset = s.cfgOffset := rfl
@[simp] theorem State.afterAdc_cfgPeriod (s : State) (i : Nat) : (s.afterAdc i).cfgPeriod = s.cfgPeriod := rfl
@[simp] theorem State.afterAdc_cfgDuration (s : State) (i : Nat) : (s.afterAdc i).cfgDuration = s.cfgDuration := rfl
@[simp] theorem State.afterAdc_cfgFlags (s : State) (i : Nat) : (s.afterAdc i).cfgFlags = s.cfgFlags := rfl
@[simp] theorem State.afterAdc_acts (s : State) (i : Nat) : (s.afterAdc i).acts = s.acts := rfl
@[simp] theorem State.afterAdc_cfg (s : State) (i : Nat) : (s.afterAdc i).cfg = s.cfg := rfl
@[simp] theorem State.afterAdc_resp (s : State) (i : Nat) : (s.afterAdc i).resp = s.resp := rfl
@[simp] theorem State.afterAdc_agenda (s : State) (i : Nat) : (s.afterAdc i).agenda = s.agenda := rfl
@[simp] theorem State.afterAdc_env (s : State) (i : Nat) : (s.afterAdc i).env =
    { s.env with adc := s.env.adc.tail, history := .reading (s.act i).ppin (s.adcAnswer i) :: s.env.history } := rfl

/-! ### `State.afterAbsTime` -/

@[simp] theorem State.afterAbsTime_run (s : State) (i : Nat) : (s.afterAbsTime i).run = s.run := rfl
@[simp] theorem State.afterAbsTime_tinit (s : State) (i : Nat) : (s.afterAbsTime i).tinit = s.tinit := rfl
@[simp] theorem State.afterAbsTime_fatal (s : State) (i : Nat) : (s.afterAbsTime i).fatal = s.fatal := rfl
@[simp] theorem State.afterAbsTime_ovf (s : State) (i : Nat) : (s.afterAbsTime i).ovf = s.ovf := rfl
@[simp] theorem State.afterAbsTime_unf (s : State) (i : Nat) : (s.afterAbsTime i).unf = s.unf := rfl
@[simp] theorem State.afterAbsTime_cfgErr (s : State) (i : Nat) : (s.afterAbsTime i).cfgErr = s.cfgErr := rfl
@[simp] theorem State.afterAbsTime_cmdErr (s : State) (i : Nat) : (s.afterAbsTime i).cmdErr = s.cmdErr := rfl
@[simp] theorem State.afterAbsTime_errCause (s : State) (i : Nat) : (s.afterAbsTime i).errCause = s.errCause := rfl
@[simp] theorem State.afterAbsTime_clock (s : State) (i : Nat) : (s.afterAbsTime i).clock = s.clock := rfl
@[simp] theorem State.afterAbsTime_actn (s : State) (i : Nat) : (s.afterAbsTime i).actn = s.actn := rfl
@[simp] theorem State.afterAbsTime_rdPos (s : State) (i : Nat) : (s.afterAbsTime i).rdPos = s.rdPos := rfl
@[simp] theorem State.afterAbsTime_wrPos (s : State) (i : Nat) : (s.afterAbsTime i).wrPos = s.wrPos := rfl
@[simp] theorem State.afterAbsTime_slots (s : State) (i : Nat) : (s.afterAbsTime i).slots = s.slots := rfl
@[simp] theorem State.afterAbsTime_cfgOffset (s : State) (i : Nat) : (s.afterAbsTime i).cfgOffset = s.cfgOffset := rfl
@[simp] theorem State.afterAbsTime_cfgPeriod (s : State) (i : Nat) : (s.afterAbsTime i).cfgPeriod = s.cfgPeriod := rfl
@[simp] theorem State.afterAbsTime_cfgDuration (s : State) (i : Nat) : (s.afterAbsTime i).cfgDuration = s.cfgDuration := rfl
@[simp] theorem State.afterAbsTime_cfgFlags (s : State) (i : Nat) : (s.afterAbsTime i).cfgFlags = s.cfgFlags := rfl
@[simp] theorem State.afterAbsTime_acts (s : State) (i : Nat) : (s.afterAbsTime i).acts = s.acts := rfl
@[simp] theorem State.afterAbsTime_cfg (s : State) (i : Nat) : (s.afterAbsTime i).cfg = s.cfg := rfl
@[simp] theorem State.afterAbsTime_resp (s : State) (i : Nat) : (s.afterAbsTime i).resp = s.resp := rfl
@[simp] theorem State.afterAbsTime_agenda (s : State) (i : Nat) : (s.afterAbsTime i).agenda = s.agenda := rfl
@[simp] theorem State.afterAbsTime_env (s : State) (i : Nat) : (s.afterAbsTime i).env =
    { s.env with absTime := s.env.absTime.tail, history := .absTime (s.absTimeAnswer i) :: s.env.history } := rfl

/-! ### `State.afterTfail` -/

@[simp] theorem State.afterTfail_run (s : State) : (s.afterTfail).run = s.run := rfl
@[simp] theorem State.afterTfail_tinit (s : State) : (s.afterTfail).tinit = s.tinit := rfl
@[simp] theorem State.afterTfail_fatal (s : State) : (s.afterTfail).fatal = s.fatal := rfl
@[simp] theorem State.afterTfail_ovf (s : State) : (s.afterTfail).ovf = s.ovf := rfl
@[simp] theorem State.afterTfail_unf (s : State) : (s.afterTfail).unf = s.unf := rfl
@[simp] theorem State.afterTfail_cfgErr (s : State) : (s.afterTfail).cfgErr = s.cfgErr := rfl
@[simp] theorem State.afterTfail_cmdErr (s : State) : (s.afterTfail).cmdErr = s.cmdErr := rfl
@[simp] theorem State.afterTfail_errCause (s : State) : (s.afterTfail).errCause = s.errCause := rfl
@[simp] theorem State.afterTfail_clock (s : State) : (s.afterTfail).clock = s.clock := rfl
@[simp] theorem State.afterTfail_actn (s : State) : (s.afterTfail).actn = s.actn := rfl
@[simp] theorem State.afterTfail_rdPos (s : State) : (s.afterTfail).rdPos = s.rdPos := rfl
@[simp] theorem State.afterTfail_wrPos (s : State) : (s.afterTfail).wrPos = s.wrPos := rfl
@[simp] theorem State.afterTfail_slots (s : State) : (s.afterTfail).slots = s.slots := rfl
@[simp] theorem State.afterTfail_cfgOffset (s : State) : (s.afterTfail).cfgOffset = s.cfgOffset := rfl
@[simp] theorem State.afterTfail_cfgPeriod (s : State) : (s.afterTfail).cfgPeriod = s.cfgPeriod := rfl
@[simp] theorem State.afterTfail_cfgDuration (s : State) : (s.afterTfail).cfgDuration = s.cfgDuration := rfl
@[simp] theorem State.afterTfail_cfgFlags (s : State) : (s.afterTfail).cfgFlags = s.cfgFlags := rfl
@[simp] theorem State.afterTfail_acts (s : State) : (s.afterTfail).acts = s.acts := rfl
@[simp] theorem State.afterTfail_cfg (s : State) : (s.afterTfail).cfg = s.cfg := rfl
@[simp] theorem State.afterTfail_resp (s : State) : (s.afterTfail).resp = s.resp := rfl
@[simp] theorem State.afterTfail_agenda (s : State) : (s.afterTfail).agenda = s.agenda := rfl
@[simp] theorem State.afterTfail_env (s : State) : (s.afterTfail).env =
    { s.env with tfail := s.env.tfail.tail, history := .tfail s.tfailAnswer :: s.env.history } := rfl

/-! ### `State.afterEmptySlot` -/

@[simp] theorem State.afterEmptySlot_run (s : State) : (s.afterEmptySlot).run = s.run := rfl
@[simp] theorem State.afterEmptySlot_tinit (s : State) : (s.afterEmptySlot).tinit = s.tinit := rfl
@[simp] theorem State.afterEmptySlot_fatal (s : State) : (s.afterEmptySlot).fatal = s.fatal := rfl
@[simp] theorem State.afterEmptySlot_ovf (s : State) : (s.afterEmptySlot).ovf = s.ovf := rfl
@[simp] theorem State.afterEmptySlot_unf (s : State) : (s.afterEmptySlot).unf = s.unf := rfl
@[simp] theorem State.afterEmptySlot_cfgErr (s : State) : (s.afterEmptySlot).cfgErr = s.cfgErr := rfl
@[simp] theorem State.afterEmptySlot_cmdErr (s : State) : (s.afterEmptySlot).cmdErr = s.cmdErr := rfl
@[simp] theorem State.afterEmptySlot_errCause (s : State) : (s.afterEmptySlot).errCause = s.errCause := rfl
@[simp] theorem State.afterEmptySlot_clock (s : State) : (s.afterEmptySlot).clock = s.clock := rfl
@[simp] theorem State.afterEmptySlot_actn (s : State) : (s.afterEmptySlot).actn = s.actn := rfl
@[simp] theorem State.afterEmptySlot_rdPos (s : State) : (s.afterEmptySlot).rdPos = s.rdPos := rfl
@[simp] theorem State.afterEmptySlot_wrPos (s : State) : (s.afterEmptySlot).wrPos = s.wrPos := rfl
@[simp] theorem State.afterEmptySlot_slots (s : State) : (s.afterEmptySlot).slots = s.slots := rfl
@[simp] theorem State.afterEmptySlot_cfgOffset (s : State) : (s.afterEmptySlot).cfgOffset = s.cfgOffset := rfl
@[simp] theorem State.afterEmptySlot_cfgPeriod (s : State) : (s.afterEmptySlot).cfgPeriod = s.cfgPeriod := rfl
@[simp] theorem State.afterEmptySlot_cfgDuration (s : State) : (s.afterEmptySlot).cfgDuration = s.cfgDuration := rfl
@[simp] theorem State.afterEmptySlot_cfgFlags (s : State) : (s.afterEmptySlot).cfgFlags = s.cfgFlags := rfl
@[simp] theorem State.afterEmptySlot_acts (s : State) : (s.afterEmptySlot).acts = s.acts := rfl
@[simp] theorem State.afterEmptySlot_cfg (s : State) : (s.afterEmptySlot).cfg = s.cfg := rfl
@[simp] theorem State.afterEmptySlot_resp (s : State) : (s.afterEmptySlot).resp = s.resp := rfl
@[simp] theorem State.afterEmptySlot_agenda (s : State) : (s.afterEmptySlot).agenda = s.agenda := rfl
@[simp] theorem State.afterEmptySlot_env (s : State) : (s.afterEmptySlot).env =
    { s.env with emptySlot := s.env.emptySlot.tail, history := .emptySlot s.emptySlotAnswer :: s.env.history } := rfl

/-! ### `State.rbGetCheck`: The check of RbGet writes `UNF` alone. -/

@[simp] theorem State.rbGetCheck_run (s : State) : (s.rbGetCheck).run = s.run := rfl
@[simp] theorem State.rbGetCheck_tinit (s : State) : (s.rbGetCheck).tinit = s.tinit := rfl
@[simp] theorem State.rbGetCheck_fatal (s : State) : (s.rbGetCheck).fatal = s.fatal := rfl
@[simp] theorem State.rbGetCheck_ovf (s : State) : (s.rbGetCheck).ovf = s.ovf := rfl
@[simp] theorem State.rbGetCheck_unf (s : State) : (s.rbGetCheck).unf = (s.unf || s.available == 0) := rfl
@[simp] theorem State.rbGetCheck_cfgErr (s : State) : (s.rbGetCheck).cfgErr = s.cfgErr := rfl
@[simp] theorem State.rbGetCheck_cmdErr (s : State) : (s.rbGetCheck).cmdErr = s.cmdErr := rfl
@[simp] theorem State.rbGetCheck_errCause (s : State) : (s.rbGetCheck).errCause = s.errCause := rfl
@[simp] theorem State.rbGetCheck_clock (s : State) : (s.rbGetCheck).clock = s.clock := rfl
@[simp] theorem State.rbGetCheck_actn (s : State) : (s.rbGetCheck).actn = s.actn := rfl
@[simp] theorem State.rbGetCheck_rdPos (s : State) : (s.rbGetCheck).rdPos = s.rdPos := rfl
@[simp] theorem State.rbGetCheck_wrPos (s : State) : (s.rbGetCheck).wrPos = s.wrPos := rfl
@[simp] theorem State.rbGetCheck_slots (s : State) : (s.rbGetCheck).slots = s.slots := rfl
@[simp] theorem State.rbGetCheck_cfgOffset (s : State) : (s.rbGetCheck).cfgOffset = s.cfgOffset := rfl
@[simp] theorem State.rbGetCheck_cfgPeriod (s : State) : (s.rbGetCheck).cfgPeriod = s.cfgPeriod := rfl
@[simp] theorem State.rbGetCheck_cfgDuration (s : State) : (s.rbGetCheck).cfgDuration = s.cfgDuration := rfl
@[simp] theorem State.rbGetCheck_cfgFlags (s : State) : (s.rbGetCheck).cfgFlags = s.cfgFlags := rfl
@[simp] theorem State.rbGetCheck_acts (s : State) : (s.rbGetCheck).acts = s.acts := rfl
@[simp] theorem State.rbGetCheck_cfg (s : State) : (s.rbGetCheck).cfg = s.cfg := rfl
@[simp] theorem State.rbGetCheck_resp (s : State) : (s.rbGetCheck).resp = s.resp := rfl
@[simp] theorem State.rbGetCheck_agenda (s : State) : (s.rbGetCheck).agenda = s.agenda := rfl
@[simp] theorem State.rbGetCheck_env (s : State) : (s.rbGetCheck).env = s.env := rfl

/-! ### `State.took`: Taking an event writes the agenda and the history alone. -/

@[simp] theorem State.took_run (s : State) (e : Event) (rest : List Event) : (s.took e rest).run = s.run := rfl
@[simp] theorem State.took_tinit (s : State) (e : Event) (rest : List Event) : (s.took e rest).tinit = s.tinit := rfl
@[simp] theorem State.took_fatal (s : State) (e : Event) (rest : List Event) : (s.took e rest).fatal = s.fatal := rfl
@[simp] theorem State.took_ovf (s : State) (e : Event) (rest : List Event) : (s.took e rest).ovf = s.ovf := rfl
@[simp] theorem State.took_unf (s : State) (e : Event) (rest : List Event) : (s.took e rest).unf = s.unf := rfl
@[simp] theorem State.took_cfgErr (s : State) (e : Event) (rest : List Event) : (s.took e rest).cfgErr = s.cfgErr := rfl
@[simp] theorem State.took_cmdErr (s : State) (e : Event) (rest : List Event) : (s.took e rest).cmdErr = s.cmdErr := rfl
@[simp] theorem State.took_errCause (s : State) (e : Event) (rest : List Event) : (s.took e rest).errCause = s.errCause := rfl
@[simp] theorem State.took_clock (s : State) (e : Event) (rest : List Event) : (s.took e rest).clock = s.clock := rfl
@[simp] theorem State.took_actn (s : State) (e : Event) (rest : List Event) : (s.took e rest).actn = s.actn := rfl
@[simp] theorem State.took_rdPos (s : State) (e : Event) (rest : List Event) : (s.took e rest).rdPos = s.rdPos := rfl
@[simp] theorem State.took_wrPos (s : State) (e : Event) (rest : List Event) : (s.took e rest).wrPos = s.wrPos := rfl
@[simp] theorem State.took_slots (s : State) (e : Event) (rest : List Event) : (s.took e rest).slots = s.slots := rfl
@[simp] theorem State.took_cfgOffset (s : State) (e : Event) (rest : List Event) : (s.took e rest).cfgOffset = s.cfgOffset := rfl
@[simp] theorem State.took_cfgPeriod (s : State) (e : Event) (rest : List Event) : (s.took e rest).cfgPeriod = s.cfgPeriod := rfl
@[simp] theorem State.took_cfgDuration (s : State) (e : Event) (rest : List Event) : (s.took e rest).cfgDuration =
    s.cfgDuration := rfl
@[simp] theorem State.took_cfgFlags (s : State) (e : Event) (rest : List Event) : (s.took e rest).cfgFlags = s.cfgFlags := rfl
@[simp] theorem State.took_acts (s : State) (e : Event) (rest : List Event) : (s.took e rest).acts = s.acts := rfl
@[simp] theorem State.took_cfg (s : State) (e : Event) (rest : List Event) : (s.took e rest).cfg = s.cfg := rfl
@[simp] theorem State.took_resp (s : State) (e : Event) (rest : List Event) : (s.took e rest).resp = s.resp := rfl
@[simp] theorem State.took_agenda (s : State) (e : Event) (rest : List Event) : (s.took e rest).agenda = rest := rfl
@[simp] theorem State.took_env (s : State) (e : Event) (rest : List Event) : (s.took e rest).env =
    { s.env with history := .event e :: s.env.history } := rfl

/-! ### `State.advanceClock`: The tick's first act writes `CLOCK` alone. -/

@[simp] theorem State.advanceClock_run (s : State) : (s.advanceClock).run = s.run := rfl
@[simp] theorem State.advanceClock_tinit (s : State) : (s.advanceClock).tinit = s.tinit := rfl
@[simp] theorem State.advanceClock_fatal (s : State) : (s.advanceClock).fatal = s.fatal := rfl
@[simp] theorem State.advanceClock_ovf (s : State) : (s.advanceClock).ovf = s.ovf := rfl
@[simp] theorem State.advanceClock_unf (s : State) : (s.advanceClock).unf = s.unf := rfl
@[simp] theorem State.advanceClock_cfgErr (s : State) : (s.advanceClock).cfgErr = s.cfgErr := rfl
@[simp] theorem State.advanceClock_cmdErr (s : State) : (s.advanceClock).cmdErr = s.cmdErr := rfl
@[simp] theorem State.advanceClock_errCause (s : State) : (s.advanceClock).errCause = s.errCause := rfl
@[simp] theorem State.advanceClock_clock (s : State) : (s.advanceClock).clock = s.clock + 1 := rfl
@[simp] theorem State.advanceClock_actn (s : State) : (s.advanceClock).actn = s.actn := rfl
@[simp] theorem State.advanceClock_rdPos (s : State) : (s.advanceClock).rdPos = s.rdPos := rfl
@[simp] theorem State.advanceClock_wrPos (s : State) : (s.advanceClock).wrPos = s.wrPos := rfl
@[simp] theorem State.advanceClock_slots (s : State) : (s.advanceClock).slots = s.slots := rfl
@[simp] theorem State.advanceClock_cfgOffset (s : State) : (s.advanceClock).cfgOffset = s.cfgOffset := rfl
@[simp] theorem State.advanceClock_cfgPeriod (s : State) : (s.advanceClock).cfgPeriod = s.cfgPeriod := rfl
@[simp] theorem State.advanceClock_cfgDuration (s : State) : (s.advanceClock).cfgDuration = s.cfgDuration := rfl
@[simp] theorem State.advanceClock_cfgFlags (s : State) : (s.advanceClock).cfgFlags = s.cfgFlags := rfl
@[simp] theorem State.advanceClock_acts (s : State) : (s.advanceClock).acts = s.acts := rfl
@[simp] theorem State.advanceClock_cfg (s : State) : (s.advanceClock).cfg = s.cfg := rfl
@[simp] theorem State.advanceClock_resp (s : State) : (s.advanceClock).resp = s.resp := rfl
@[simp] theorem State.advanceClock_agenda (s : State) : (s.advanceClock).agenda = s.agenda := rfl
@[simp] theorem State.advanceClock_env (s : State) : (s.advanceClock).env = s.env := rfl

/-! ### `State.writeStatus`: A CSRW to STATUS (44_csr.md R223) writes its four sticky flags alone. -/

@[simp] theorem State.writeStatus_run (s : State) (v : Word) : (s.writeStatus v).run = s.run := rfl
@[simp] theorem State.writeStatus_tinit (s : State) (v : Word) : (s.writeStatus v).tinit = s.tinit := rfl
@[simp] theorem State.writeStatus_fatal (s : State) (v : Word) : (s.writeStatus v).fatal = s.fatal := rfl
@[simp] theorem State.writeStatus_ovf (s : State) (v : Word) : (s.writeStatus v).ovf = (s.ovf && !v.getLsbD 3) := rfl
@[simp] theorem State.writeStatus_unf (s : State) (v : Word) : (s.writeStatus v).unf = (s.unf && !v.getLsbD 4) := rfl
@[simp] theorem State.writeStatus_cfgErr (s : State) (v : Word) : (s.writeStatus v).cfgErr = (s.cfgErr && !v.getLsbD 5) := rfl
@[simp] theorem State.writeStatus_cmdErr (s : State) (v : Word) : (s.writeStatus v).cmdErr = (s.cmdErr && !v.getLsbD 6) := rfl
@[simp] theorem State.writeStatus_errCause (s : State) (v : Word) : (s.writeStatus v).errCause = s.errCause := rfl
@[simp] theorem State.writeStatus_clock (s : State) (v : Word) : (s.writeStatus v).clock = s.clock := rfl
@[simp] theorem State.writeStatus_actn (s : State) (v : Word) : (s.writeStatus v).actn = s.actn := rfl
@[simp] theorem State.writeStatus_rdPos (s : State) (v : Word) : (s.writeStatus v).rdPos = s.rdPos := rfl
@[simp] theorem State.writeStatus_wrPos (s : State) (v : Word) : (s.writeStatus v).wrPos = s.wrPos := rfl
@[simp] theorem State.writeStatus_slots (s : State) (v : Word) : (s.writeStatus v).slots = s.slots := rfl
@[simp] theorem State.writeStatus_cfgOffset (s : State) (v : Word) : (s.writeStatus v).cfgOffset = s.cfgOffset := rfl
@[simp] theorem State.writeStatus_cfgPeriod (s : State) (v : Word) : (s.writeStatus v).cfgPeriod = s.cfgPeriod := rfl
@[simp] theorem State.writeStatus_cfgDuration (s : State) (v : Word) : (s.writeStatus v).cfgDuration = s.cfgDuration := rfl
@[simp] theorem State.writeStatus_cfgFlags (s : State) (v : Word) : (s.writeStatus v).cfgFlags = s.cfgFlags := rfl
@[simp] theorem State.writeStatus_acts (s : State) (v : Word) : (s.writeStatus v).acts = s.acts := rfl
@[simp] theorem State.writeStatus_cfg (s : State) (v : Word) : (s.writeStatus v).cfg = s.cfg := rfl
@[simp] theorem State.writeStatus_resp (s : State) (v : Word) : (s.writeStatus v).resp = s.resp := rfl
@[simp] theorem State.writeStatus_agenda (s : State) (v : Word) : (s.writeStatus v).agenda = s.agenda := rfl
@[simp] theorem State.writeStatus_env (s : State) (v : Word) : (s.writeStatus v).env = s.env := rfl

end Sys2Proof.Machine
end

