-- ==== Sys2Proof/Laws/Activity.lean ====
section
/-! SUPPORT. What the operations on activity slots do: reads of a slot after a write, the frame of a tick, and the
effect of `ActUpdate` on its own slot's `ISON` and `CNT`. -/

namespace Sys2Proof.Machine

/-! ## Reading a slot -/

theorem State.act_setAct (s : State) (i j : Nat) (a : Activity) :
    (s.setAct i a).act j = if i = j ∧ i < s.acts.length then a else s.act j := by
  simp only [State.act, State.setAct, List.getD_eq_getElem?_getD, List.getElem?_set]
  by_cases h : i = j
  · subst h
    by_cases hl : i < s.acts.length <;> simp [hl]
  · simp [h]

theorem State.act_setAct_same {s : State} {i : Nat} (a : Activity) (h : i < s.acts.length) :
    (s.setAct i a).act i = a := by simp [State.act_setAct, h]

theorem State.act_setAct_ne {s : State} {i j : Nat} (a : Activity) (h : j ≠ i) :
    (s.setAct i a).act j = s.act j := by simp [State.act_setAct, h.symm]

theorem State.act_of_acts {s t : State} (h : t.acts = s.acts) (i : Nat) : t.act i = s.act i := by
  simp [State.act, h]

theorem State.act_of_length_le {s : State} {i : Nat} (h : s.acts.length ≤ i) : s.act i = Activity.reset := by
  simp [State.act, List.getD_eq_getElem?_getD, List.getElem?_eq_none h]

@[simp] theorem State.act_respond (s : State) (r0 r1 r2 r3 : Word) (i : Nat) :
    (s.respond r0 r1 r2 r3).act i = s.act i := rfl
@[simp] theorem State.act_refuse (s : State) (c : Cause) (i : Nat) : (s.refuse c).act i = s.act i := rfl
@[simp] theorem State.act_failTimer (s : State) (i : Nat) : s.failTimer.act i = s.act i := rfl
@[simp] theorem State.act_rbPut (s : State) (rec : SampleRecord) (i : Nat) : (s.rbPut rec).act i = s.act i := rfl
@[simp] theorem State.act_afterAdc (s : State) (i j : Nat) : (s.afterAdc i).act j = s.act j := rfl
@[simp] theorem State.act_afterAbsTime (s : State) (i j : Nat) : (s.afterAbsTime i).act j = s.act j := rfl
@[simp] theorem State.act_afterTfail (s : State) (i : Nat) : s.afterTfail.act i = s.act i := rfl
@[simp] theorem State.act_took (s : State) (e : Event) (rest : List Event) (i : Nat) :
    (s.took e rest).act i = s.act i := rfl
@[simp] theorem State.act_advanceClock (s : State) (i : Nat) : s.advanceClock.act i = s.act i := rfl
@[simp] theorem State.act_writeStatus (s : State) (v : Word) (i : Nat) : (s.writeStatus v).act i = s.act i := rfl

theorem State.act_setIson (s : State) (i j : Nat) (b : Bool) :
    (s.setIson i b).act j = if i = j ∧ i < s.acts.length then { s.act i with ison := b } else s.act j :=
  State.act_setAct ..

theorem State.act_clearAccumulators (s : State) (i j : Nat) :
    (s.clearAccumulators i).act j =
      if i = j ∧ i < s.acts.length then { s.act i with ts := 0, cnt := 0, sum := 0 } else s.act j :=
  State.act_setAct ..

/-! ## The frame of a tick -/

/-- What a tick and all it calls leave unchanged (43_dispatcher.md R181): everything but `CLOCK`, the run-time
fields of the slots, the producer's side of the ring, `OVF` (set only) and the environment. -/
structure TickFrame (s t : State) : Prop where
  run : t.run = s.run
  tinit : t.tinit = s.tinit
  fatal : t.fatal = s.fatal
  unf : t.unf = s.unf
  cfgErr : t.cfgErr = s.cfgErr
  cmdErr : t.cmdErr = s.cmdErr
  errCause : t.errCause = s.errCause
  actn : t.actn = s.actn
  rdPos : t.rdPos = s.rdPos
  cfgOffset : t.cfgOffset = s.cfgOffset
  cfgPeriod : t.cfgPeriod = s.cfgPeriod
  cfgDuration : t.cfgDuration = s.cfgDuration
  cfgFlags : t.cfgFlags = s.cfgFlags
  cfg : t.cfg = s.cfg
  resp : t.resp = s.resp
  agenda : t.agenda = s.agenda
  acts_length : t.acts.length = s.acts.length
  act : ∀ j, t.act j = { s.act j with
    ison := (t.act j).ison, ts := (t.act j).ts, cnt := (t.act j).cnt, sum := (t.act j).sum }
  ovf : s.ovf = true → t.ovf = true

theorem TickFrame.refl (s : State) : TickFrame s s := by constructor <;> simp

theorem TickFrame.trans {s t u : State} (h : TickFrame s t) (k : TickFrame t u) : TickFrame s u where
  run := k.run.trans h.run
  tinit := k.tinit.trans h.tinit
  fatal := k.fatal.trans h.fatal
  unf := k.unf.trans h.unf
  cfgErr := k.cfgErr.trans h.cfgErr
  cmdErr := k.cmdErr.trans h.cmdErr
  errCause := k.errCause.trans h.errCause
  actn := k.actn.trans h.actn
  rdPos := k.rdPos.trans h.rdPos
  cfgOffset := k.cfgOffset.trans h.cfgOffset
  cfgPeriod := k.cfgPeriod.trans h.cfgPeriod
  cfgDuration := k.cfgDuration.trans h.cfgDuration
  cfgFlags := k.cfgFlags.trans h.cfgFlags
  cfg := k.cfg.trans h.cfg
  resp := k.resp.trans h.resp
  agenda := k.agenda.trans h.agenda
  acts_length := k.acts_length.trans h.acts_length
  act := fun j => by rw [k.act j, h.act j]
  ovf := fun e => k.ovf (h.ovf e)

/-- A slot's write that keeps its configuration fields is within the frame. -/
theorem TickFrame.setAct (s : State) (i : Nat) (a : Activity)
    (h : a = { s.act i with ison := a.ison, ts := a.ts, cnt := a.cnt, sum := a.sum }) :
    TickFrame s (s.setAct i a) where
  run := rfl
  tinit := rfl
  fatal := rfl
  unf := rfl
  cfgErr := rfl
  cmdErr := rfl
  errCause := rfl
  actn := rfl
  rdPos := rfl
  cfgOffset := rfl
  cfgPeriod := rfl
  cfgDuration := rfl
  cfgFlags := rfl
  cfg := rfl
  resp := rfl
  agenda := rfl
  acts_length := by simp
  act := fun j => by
    rw [State.act_setAct]
    split
    · rename_i hj
      rw [← hj.1]
      exact h
    · rfl
  ovf := fun e => e

theorem TickFrame.rbPut (s : State) (rec : SampleRecord) : TickFrame s (s.rbPut rec) := by
  constructor <;> simp_all

theorem TickFrame.afterAdc (s : State) (i : Nat) : TickFrame s (s.afterAdc i) := by constructor <;> simp

theorem TickFrame.afterAbsTime (s : State) (i : Nat) : TickFrame s (s.afterAbsTime i) := by constructor <;> simp

theorem TickFrame.advanceClock (s : State) : TickFrame s s.advanceClock := by constructor <;> simp

theorem TickFrame.setIson (s : State) (i : Nat) (b : Bool) : TickFrame s (s.setIson i b) :=
  TickFrame.setAct _ _ _ rfl

theorem TickFrame.clearAccumulators (s : State) (i : Nat) : TickFrame s (s.clearAccumulators i) :=
  TickFrame.setAct _ _ _ rfl

/-- A relation that is reflexive and transitive and holds of every round holds of the loop. -/
theorem forBelow_induct {R : State → State → Prop} (refl : ∀ s, R s s)
    (trans : ∀ {s t u}, R s t → R t u → R s u) {f : Nat → State → State} {n : Nat}
    (h : ∀ i s, i < n → R s (f i s)) (s : State) : R s (forBelow n f s) := by
  induction n with
  | zero => exact refl s
  | succ k ih => exact trans (ih fun i t hi => h i t (by omega)) (h k _ (by omega))

theorem TickFrame.closeWindow (s : State) (i : Nat) : TickFrame s (s.closeWindow i) := by
  unfold State.closeWindow State.offCallback
  split
  · exact (TickFrame.setIson s i false).trans (TickFrame.rbPut _ _)
  · exact TickFrame.setIson s i false

theorem TickFrame.openWindow (s : State) (i : Nat) : TickFrame s (s.openWindow i) := by
  unfold State.openWindow State.onCallback
  split
  · exact (TickFrame.setIson s i true).trans (TickFrame.clearAccumulators _ _)
  · exact TickFrame.setIson s i true

theorem TickFrame.closeEnded (s : State) (i e d : Nat) : TickFrame s (s.closeEnded i e d) := by
  unfold State.closeEnded
  split
  · exact TickFrame.closeWindow s i
  · exact TickFrame.refl s

theorem TickFrame.openNew (s : State) (i e : Nat) : TickFrame s (s.openNew i e) := by
  unfold State.openNew
  split
  · exact TickFrame.openWindow s i
  · exact TickFrame.refl s

theorem TickFrame.closeEmpty (s : State) (i e d : Nat) : TickFrame s (s.closeEmpty i e d) := by
  unfold State.closeEmpty
  split
  · exact TickFrame.closeWindow s i
  · exact TickFrame.refl s

theorem TickFrame.transitions (s : State) (i e d : Nat) : TickFrame s (s.transitions i e d) :=
  ((TickFrame.closeEnded s i e d).trans (TickFrame.openNew _ i e)).trans (TickFrame.closeEmpty _ i e d)

theorem TickFrame.taskStep (s : State) (i : Nat) (now : Word) : TickFrame s (s.taskStep i now) := by
  unfold State.taskStep
  split
  · exact TickFrame.refl s
  · exact TickFrame.transitions _ _ _ _

theorem TickFrame.sampleTime (s : State) (i : Nat) : TickFrame s (s.sampleTime i) := by
  unfold State.sampleTime
  split
  · exact (TickFrame.afterAbsTime s i).trans (TickFrame.setAct _ _ _ rfl)
  · exact TickFrame.refl s

theorem TickFrame.sampleCount (s : State) (i : Nat) : TickFrame s (s.sampleCount i) :=
  TickFrame.setAct _ _ _ rfl

theorem TickFrame.sampleReading (s : State) (i : Nat) : TickFrame s (s.sampleReading i) :=
  (TickFrame.afterAdc s i).trans (TickFrame.setAct _ _ _ rfl)

theorem TickFrame.sample (s : State) (i : Nat) : TickFrame s (s.sample i) :=
  ((TickFrame.sampleTime s i).trans (TickFrame.sampleCount _ i)).trans (TickFrame.sampleReading _ i)

theorem TickFrame.actUpdate (s : State) (i : Nat) (now : Word) : TickFrame s (s.actUpdate i now) := by
  unfold State.actUpdate State.sampleIfOn
  split
  · exact (TickFrame.taskStep s i now).trans (TickFrame.sample _ i)
  · exact TickFrame.taskStep s i now

theorem TickFrame.pass (s : State) (n : Nat) (sec : Bool) (now : Word) : TickFrame s (s.pass n sec now) := by
  refine forBelow_induct (R := TickFrame) TickFrame.refl (fun h k => h.trans k) (fun i t _ => ?_) s
  split
  · exact TickFrame.actUpdate t i now
  · exact TickFrame.refl t

/-- The frame of a whole tick. -/
theorem TickFrame.tick (s : State) : TickFrame s s.tick :=
  ((TickFrame.advanceClock s).trans (TickFrame.pass _ _ _ _)).trans (TickFrame.pass _ _ _ _)

/-! ## What is kept by one slot's update

The clock and every other slot. -/

/-- A tick's work on slot `i` keeps the clock and every other slot. -/
structure SlotFrame (i : Nat) (s t : State) : Prop where
  clock : t.clock = s.clock
  others : ∀ j, j ≠ i → t.act j = s.act j

theorem SlotFrame.refl (i : Nat) (s : State) : SlotFrame i s s := ⟨rfl, fun _ _ => rfl⟩

theorem SlotFrame.trans {i : Nat} {s t u : State} (h : SlotFrame i s t) (k : SlotFrame i t u) : SlotFrame i s u :=
  ⟨k.clock.trans h.clock, fun j hj => (k.others j hj).trans (h.others j hj)⟩

theorem SlotFrame.setAct (s : State) (i : Nat) (a : Activity) : SlotFrame i s (s.setAct i a) :=
  ⟨rfl, fun _ hj => State.act_setAct_ne a hj⟩

theorem SlotFrame.rbPut (i : Nat) (s : State) (rec : SampleRecord) : SlotFrame i s (s.rbPut rec) :=
  ⟨rfl, fun _ _ => rfl⟩

theorem SlotFrame.closeWindow (s : State) (i : Nat) : SlotFrame i s (s.closeWindow i) := by
  unfold State.closeWindow State.offCallback
  split
  · exact (SlotFrame.setAct ..).trans (SlotFrame.rbPut ..)
  · exact SlotFrame.setAct ..

theorem SlotFrame.openWindow (s : State) (i : Nat) : SlotFrame i s (s.openWindow i) := by
  unfold State.openWindow State.onCallback
  split
  · exact (SlotFrame.setAct ..).trans (SlotFrame.setAct ..)
  · exact SlotFrame.setAct ..

theorem SlotFrame.closeEnded (s : State) (i e d : Nat) : SlotFrame i s (s.closeEnded i e d) := by
  unfold State.closeEnded
  split
  · exact SlotFrame.closeWindow ..
  · exact SlotFrame.refl ..

theorem SlotFrame.openNew (s : State) (i e : Nat) : SlotFrame i s (s.openNew i e) := by
  unfold State.openNew
  split
  · exact SlotFrame.openWindow ..
  · exact SlotFrame.refl ..

theorem SlotFrame.closeEmpty (s : State) (i e d : Nat) : SlotFrame i s (s.closeEmpty i e d) := by
  unfold State.closeEmpty
  split
  · exact SlotFrame.closeWindow ..
  · exact SlotFrame.refl ..

theorem SlotFrame.taskStep (s : State) (i : Nat) (now : Word) : SlotFrame i s (s.taskStep i now) := by
  unfold State.taskStep
  split
  · exact SlotFrame.refl i s
  · exact ((SlotFrame.closeEnded ..).trans (SlotFrame.openNew ..)).trans (SlotFrame.closeEmpty ..)

theorem SlotFrame.sampleTime (s : State) (i : Nat) : SlotFrame i s (s.sampleTime i) := by
  unfold State.sampleTime
  split
  · exact (⟨rfl, fun _ _ => rfl⟩ : SlotFrame i s (s.afterAbsTime i)).trans (SlotFrame.setAct ..)
  · exact SlotFrame.refl ..

theorem SlotFrame.sampleReading (s : State) (i : Nat) : SlotFrame i s (s.sampleReading i) :=
  (⟨rfl, fun _ _ => rfl⟩ : SlotFrame i s (s.afterAdc i)).trans (SlotFrame.setAct ..)

theorem SlotFrame.sample (s : State) (i : Nat) : SlotFrame i s (s.sample i) :=
  ((SlotFrame.sampleTime s i).trans (SlotFrame.setAct ..)).trans (SlotFrame.sampleReading ..)

theorem SlotFrame.actUpdate (s : State) (i : Nat) (now : Word) : SlotFrame i s (s.actUpdate i now) := by
  unfold State.actUpdate State.sampleIfOn
  split
  · exact (SlotFrame.taskStep s i now).trans (SlotFrame.sample _ i)
  · exact SlotFrame.taskStep s i now

/-- A pass keeps the clock. -/
theorem State.pass_clock (s : State) (n : Nat) (sec : Bool) (now : Word) : (s.pass n sec now).clock = s.clock := by
  refine forBelow_induct (R := fun s t => t.clock = s.clock) (fun _ => rfl) (fun h k => k.trans h) (fun i t _ => ?_) s
  split
  · exact (SlotFrame.actUpdate t i now).clock
  · rfl

/-- The tick's clock (43_dispatcher.md R181). -/
theorem State.tick_clock (s : State) : s.tick.clock = s.clock + 1 := by
  simp [State.tick, State.pass_clock]

/-! ## What one slot's update does to its own slot -/

/-- The slot after `closeWindow`, whatever its kind. -/
theorem State.act_closeWindow (s : State) (i : Nat) (h : i < s.acts.length) :
    (s.closeWindow i).act i = { s.act i with ison := false } := by
  unfold State.closeWindow State.offCallback
  split <;> simp [State.act_setIson, h]

/-- The slot after `openWindow`: its accumulators are cleared if it is a SAMPLER. -/
theorem State.act_openWindow (s : State) (i : Nat) (h : i < s.acts.length) :
    (s.openWindow i).act i =
      if (s.act i).smp then { s.act i with ison := true, ts := 0, cnt := 0, sum := 0 }
      else { s.act i with ison := true } := by
  unfold State.openWindow State.onCallback
  have hi : (s.setIson i true).act i = { s.act i with ison := true } := by simp [State.act_setIson, h]
  have hl : i < (s.setIson i true).acts.length := by simpa [State.setIson] using h
  rw [hi]
  simp only
  split
  · rw [State.act_clearAccumulators]; simp [hl, hi]
  · exact hi

theorem State.setAct_setAct (s : State) (i : Nat) (a b : Activity) : (s.setAct i a).setAct i b = s.setAct i b := by
  simp [State.setAct, List.set_set]

theorem State.setAct_act (s : State) (i : Nat) : s.setAct i (s.act i) = s := by
  have : s.acts.set i (s.act i) = s.acts := by
    apply List.ext_getElem?
    intro k
    rw [List.getElem?_set]
    split
    · rename_i hk
      subst hk
      split
      · rename_i hl; simp [State.act, List.getD_eq_getElem?_getD, List.getElem?_eq_getElem hl]
      · rename_i hl; rw [List.getElem?_eq_none (by omega)]
    · rfl
  simp [State.setAct, this]

theorem State.rbPut_setAct (s : State) (i : Nat) (a : Activity) (rec : SampleRecord) :
    (s.setAct i a).rbPut rec = (s.rbPut rec).setAct i a := rfl

/-- The puts of a list of records, in order. -/
def State.rbPuts (s : State) (recs : List SampleRecord) : State := recs.foldl State.rbPut s

@[simp] theorem State.rbPuts_nil (s : State) : s.rbPuts [] = s := rfl

@[simp] theorem State.rbPuts_cons (s : State) (rec : SampleRecord) (recs : List SampleRecord) :
    s.rbPuts (rec :: recs) = (s.rbPut rec).rbPuts recs := rfl

theorem State.rbPuts_append (s : State) (r1 r2 : List SampleRecord) :
    s.rbPuts (r1 ++ r2) = (s.rbPuts r1).rbPuts r2 := by simp [State.rbPuts, List.foldl_append]

/-- Everything `A[i].ISON <- 0; OffCallback(i)` does: one put if the slot is a SAMPLER, and the slot `OFF`. -/
theorem State.closeWindow_eq (s : State) (i : Nat) (h : i < s.acts.length) :
    s.closeWindow i =
      (s.rbPuts (if (s.act i).smp then [(s.act i).record] else [])).setAct i { s.act i with ison := false } := by
  have hi : (s.setIson i false).act i = { s.act i with ison := false } := by simp [State.act_setIson, h]
  unfold State.closeWindow State.offCallback
  rw [hi]
  by_cases hs : (s.act i).smp = true
  · simp [hs, State.setIson, State.rbPut_setAct, Activity.record]
  · simp [hs, State.setIson]

/-- A slot as `OnCallback` leaves it: the accumulators cleared if it is a SAMPLER. -/
def Activity.opened (a : Activity) : Activity :=
  if a.smp then { a with ison := true, ts := 0, cnt := 0, sum := 0 } else { a with ison := true }

/-- Everything `A[i].ISON <- 1; OnCallback(i)` does. -/
theorem State.openWindow_eq (s : State) (i : Nat) (h : i < s.acts.length) :
    s.openWindow i = s.setAct i (s.act i).opened := by
  have hi : (s.setIson i true).act i = { s.act i with ison := true } := by simp [State.act_setIson, h]
  unfold State.openWindow State.onCallback Activity.opened
  rw [hi]
  by_cases hs : (s.act i).smp = true
  · simp [hs, State.clearAccumulators, State.setIson, State.setAct_setAct]
    simp [State.act_setAct, h]
  · simp [hs, State.setIson]

/-- The slot `TaskStep` leaves (41_periodic_task.md R143): unchanged before the offset; at the start of a period
opened afresh, and on exactly if the window is not empty; otherwise on only while the window lasts. -/
def Activity.afterStep (a : Activity) (now : Word) : Activity :=
  if now.toNat < a.offset.toNat then a
  else if a.elapsed now = 0 then { a.opened with ison := decide (0 < a.duration.toNat) }
  else { a with ison := a.ison && decide (a.elapsed now < a.duration.toNat) }

/-- The records `TaskStep` puts (41_periodic_task.md R148, 42_sampler.md R164), in order. -/
def Activity.stepPuts (a : Activity) (now : Word) : List SampleRecord :=
  if now.toNat < a.offset.toNat ∨ a.smp = false then []
  else if a.elapsed now = 0 then
    (if a.ison then [a.record] else []) ++ (if a.duration.toNat = 0 then [a.opened.record] else [])
  else if a.ison = true ∧ a.duration.toNat ≤ a.elapsed now then [a.record] else []

theorem State.act_rbPuts (s : State) (recs : List SampleRecord) (i : Nat) : (s.rbPuts recs).act i = s.act i := by
  induction recs generalizing s with
  | nil => rfl
  | cons r rest ih => rw [State.rbPuts_cons, ih]; rfl

theorem State.acts_rbPuts (s : State) (recs : List SampleRecord) : (s.rbPuts recs).acts = s.acts := by
  induction recs generalizing s with
  | nil => rfl
  | cons r rest ih => rw [State.rbPuts_cons, ih]; rfl

theorem State.rbPuts_setAct (s : State) (i : Nat) (a : Activity) (recs : List SampleRecord) :
    (s.setAct i a).rbPuts recs = (s.rbPuts recs).setAct i a := by
  induction recs generalizing s with
  | nil => rfl
  | cons r rest ih => rw [State.rbPuts_cons, State.rbPuts_cons, State.rbPut_setAct, ih]

@[simp] theorem Activity.opened_ison (a : Activity) : a.opened.ison = true := by unfold Activity.opened; split <;> rfl
@[simp] theorem Activity.opened_smp (a : Activity) : a.opened.smp = a.smp := by unfold Activity.opened; split <;> rfl

theorem Activity.opened_off (a : Activity) : ({ a with ison := false } : Activity).opened = a.opened := by
  unfold Activity.opened; rfl

/-- Everything the three transitions do to a state, by the four cases of `e` and `D`. -/
theorem State.transitions_eq (s : State) (i e d : Nat) (h : i < s.acts.length) :
    s.transitions i e d =
      if e = 0 then
        (s.rbPuts (if (s.act i).smp then
            (if (s.act i).ison then [(s.act i).record] else []) ++ (if d = 0 then [(s.act i).opened.record] else [])
          else [])).setAct i { (s.act i).opened with ison := decide (0 < d) }
      else
        (s.rbPuts (if (s.act i).smp = true ∧ (s.act i).ison = true ∧ d ≤ e then [(s.act i).record] else [])).setAct i
          { s.act i with ison := (s.act i).ison && decide (e < d) } := by
  unfold State.transitions
  by_cases he : e = 0
  · subst he
    simp only [if_true]
    -- the state after step (1)
    obtain ⟨t, ht, hta, hlen, htp⟩ : ∃ t, s.closeEnded i 0 d = t ∧ t.act i = { s.act i with ison := false } ∧
        i < t.acts.length ∧ t = (s.rbPuts (if (s.act i).smp = true ∧ (s.act i).ison = true then [(s.act i).record]
          else [])).setAct i { s.act i with ison := false } := by
      refine ⟨_, rfl, ?_, ?_, ?_⟩
      · unfold State.closeEnded
        split
        · exact State.act_closeWindow s i h
        · rename_i hn
          have hoff : (s.act i).ison = false := by simpa using hn
          rw [← hoff]
      · rw [(TickFrame.closeEnded s i 0 d).acts_length]; exact h
      · unfold State.closeEnded
        split
        · rename_i hp
          rw [State.closeWindow_eq s i h]
          simp [hp.1]
        · rename_i hn
          have hoff : (s.act i).ison = false := by simpa using hn
          simp only [hoff, Bool.false_eq_true, and_false, if_false, State.rbPuts_nil]
          conv_lhs => rw [← State.setAct_act s i]
          rw [← hoff]
    rw [ht]
    have h2 : t.openNew i 0 = t.setAct i (s.act i).opened := by
      unfold State.openNew
      rw [if_pos ⟨by rw [hta], rfl⟩, State.openWindow_eq t i hlen, hta, Activity.opened_off]
    rw [h2]
    have hlen2 : i < (t.setAct i (s.act i).opened).acts.length := by simpa using hlen
    have ha2 : (t.setAct i (s.act i).opened).act i = (s.act i).opened := State.act_setAct_same _ hlen
    unfold State.closeEmpty
    by_cases hd : d = 0
    · subst hd
      rw [if_pos ⟨by rw [ha2]; simp, le_refl 0⟩, State.closeWindow_eq _ i hlen2, ha2, htp]
      simp only [State.setAct_setAct, State.rbPuts_setAct, Activity.opened_smp]
      by_cases hs : (s.act i).smp = true
      · by_cases ho : (s.act i).ison = true <;> simp [hs, ho]
      · simp [hs]
    · rw [if_neg (by simp [hd]), htp, State.setAct_setAct]
      have hdp : decide (0 < d) = true := by simp; omega
      have : ({ (s.act i).opened with ison := true } : Activity) = (s.act i).opened := by
        unfold Activity.opened; split <;> rfl
      rw [hdp, this]
      by_cases hs : (s.act i).smp = true
      · by_cases ho : (s.act i).ison = true <;> simp [hs, ho, hd]
      · simp [hs]
  · simp only [if_neg he]
    have h2 : (s.closeEnded i e d).openNew i e = s.closeEnded i e d := by
      unfold State.openNew; rw [if_neg (by simp [he])]
    rw [h2]
    unfold State.closeEnded
    by_cases hon : (s.act i).ison = true
    · by_cases hd : d ≤ e
      · rw [if_pos ⟨hon, .inl hd⟩]
        unfold State.closeEmpty
        rw [if_neg (by rw [State.act_closeWindow s i h]; simp), State.closeWindow_eq s i h]
        have : decide (e < d) = false := by simp; omega
        simp [hon, hd, this]
      · have hn : ¬ (d ≤ e ∨ e = 0) := by omega
        rw [if_neg (by simp [hn])]
        unfold State.closeEmpty
        rw [if_neg (by simp [hd])]
        have : decide (e < d) = true := by simp; omega
        simp only [hd, and_false, if_false, State.rbPuts_nil, this, Bool.and_true]
        exact (State.setAct_act s i).symm
    · have hoff : (s.act i).ison = false := by simpa using hon
      rw [if_neg (by simp [hoff])]
      unfold State.closeEmpty
      rw [if_neg (by simp [hoff])]
      simp only [hoff, Bool.false_eq_true, false_and, and_false, if_false, State.rbPuts_nil, Bool.false_and]
      conv_lhs => rw [← State.setAct_act s i]
      rw [← hoff]

/-- Everything `TaskStep` does (41_periodic_task.md R143): the puts of its callbacks, and its own slot. -/
theorem State.taskStep_eq (s : State) (i : Nat) (now : Word) (h : i < s.acts.length) :
    s.taskStep i now = (s.rbPuts ((s.act i).stepPuts now)).setAct i ((s.act i).afterStep now) := by
  unfold State.taskStep Activity.stepPuts Activity.afterStep
  by_cases hn : now.toNat < (s.act i).offset.toNat
  · simp [hn, State.setAct_act]
  · rw [if_neg hn, if_neg hn, State.transitions_eq s i _ _ h]
    by_cases he : (s.act i).elapsed now = 0
    · simp only [he, if_true]
      by_cases hs : (s.act i).smp = true <;> simp [hs, hn]
    · simp only [he, if_false]
      by_cases hs : (s.act i).smp = true <;> simp [hs, hn]

/-- The slot after `TaskStep`. -/
theorem State.act_taskStep (s : State) (i : Nat) (now : Word) (h : i < s.acts.length) :
    (s.taskStep i now).act i = (s.act i).afterStep now := by
  rw [State.taskStep_eq s i now h, State.act_setAct_same _ (by rw [State.acts_rbPuts]; exact h)]

/-- The slot after the timestamp part of `Sample`. -/
theorem State.act_sampleTime (s : State) (i : Nat) (h : i < s.acts.length) :
    (s.sampleTime i).act i =
      { s.act i with ts := if (s.act i).ts = 0 then s.absTimeAnswer i else (s.act i).ts } := by
  unfold State.sampleTime
  split
  · rw [State.act_setAct_same _ (by simpa using h)]
  · rfl

/-- The slot after `Sample` (42_sampler.md R162): the timestamp if none was set, one more sample, one more reading.
The reading is drawn in the state after the timestamp and the count. -/
theorem State.act_sample (s : State) (i : Nat) (h : i < s.acts.length) :
    (s.sample i).act i =
      { s.act i with
        ts := if (s.act i).ts = 0 then s.absTimeAnswer i else (s.act i).ts
        cnt := (s.act i).cnt + 1
        sum := (s.act i).sum + ((s.sampleTime i).sampleCount i).adcAnswer i } := by
  have hl : i < (s.sampleTime i).acts.length := by rw [(TickFrame.sampleTime s i).acts_length]; exact h
  have hl2 : i < ((s.sampleTime i).sampleCount i).acts.length := by
    rw [(TickFrame.sampleCount _ i).acts_length]; exact hl
  have hc : ((s.sampleTime i).sampleCount i).act i =
      { (s.sampleTime i).act i with cnt := ((s.sampleTime i).act i).cnt + 1 } := State.act_setAct_same _ hl
  unfold State.sample
  unfold State.sampleReading
  rw [State.act_setAct_same _ (by simpa using hl2), hc, State.act_sampleTime s i h]

/-- `Sample` keeps its slot's `ISON`. -/
theorem State.ison_sample (s : State) (i : Nat) (h : i < s.acts.length) :
    ((s.sample i).act i).ison = (s.act i).ison := by rw [State.act_sample s i h]

theorem State.acts_length_taskStep (s : State) (i : Nat) (now : Word) :
    (s.taskStep i now).acts.length = s.acts.length := (TickFrame.taskStep s i now).acts_length

/-- The `ISON` that `ActUpdate` leaves in its own slot. -/
theorem State.ison_actUpdate (s : State) (i : Nat) (now : Word) (h : i < s.acts.length) :
    ((s.actUpdate i now).act i).ison = ((s.act i).afterStep now).ison := by
  unfold State.actUpdate State.sampleIfOn
  split
  · rw [State.ison_sample _ _ (by rw [State.acts_length_taskStep]; exact h), State.act_taskStep s i now h]
  · rw [State.act_taskStep s i now h]

/-- The `CNT` that `ActUpdate` leaves in its own slot: one more if the slot is a SAMPLER and `ON` after `TaskStep`. -/
theorem State.cnt_actUpdate (s : State) (i : Nat) (now : Word) (h : i < s.acts.length) :
    ((s.actUpdate i now).act i).cnt =
      if ((s.act i).afterStep now).smp = true ∧ ((s.act i).afterStep now).ison = true
      then ((s.act i).afterStep now).cnt + 1 else ((s.act i).afterStep now).cnt := by
  unfold State.actUpdate State.sampleIfOn
  rw [State.act_taskStep s i now h]
  split
  · rw [State.act_sample _ _ (by rw [State.acts_length_taskStep]; exact h), State.act_taskStep s i now h]
  · rw [State.act_taskStep s i now h]

end Sys2Proof.Machine
end

