-- ==== Sys2Proof/Laws/Decode.lean ====
section
/-! SUPPORT. The encoding in plain arithmetic: what the fields of a word are, which opcodes the map lists, when a
format's reserved fields are clear, and the number a command's encoding is. -/

namespace Sys2Proof

theorem opcField_toNat (cmd : Word) : (opcField cmd).toNat = cmd.toNat / 2 ^ 24 := by
  simp [opcField, BitVec.extractLsb'_toNat, Nat.shiftRight_eq_div_pow]
  omega

theorem arg8Field_toNat (cmd : Word) : (arg8Field cmd).toNat = cmd.toNat / 2 ^ 16 % 2 ^ 8 := by
  simp [arg8Field, BitVec.extractLsb'_toNat, Nat.shiftRight_eq_div_pow]

theorem rsvField_toNat (cmd : Word) : (rsvField cmd).toNat = cmd.toNat / 2 ^ 12 % 2 ^ 4 := by
  simp [rsvField, BitVec.extractLsb'_toNat, Nat.shiftRight_eq_div_pow]

theorem csraField_toNat (cmd : Word) : (csraField cmd).toNat = cmd.toNat % 2 ^ 12 := by
  simp [csraField, BitVec.extractLsb'_toNat]

/-- The map finds every command at its own `OPC` (30_encoding.md R86). -/
theorem Opcode.ofCode_code (op : Opcode) : Opcode.ofCode op.code = some op := by cases op <;> decide

/-- The map finds a command at no other `OPC`: no two rows overlap (30_encoding.md R87). -/
theorem Opcode.code_of_ofCode {b : BitVec 8} {op : Opcode} (h : Opcode.ofCode b = some op) : b = op.code := by
  revert b op; decide

/-- No two rows of the opcode map share an `OPC` value or a command. -/
theorem opcodeMap_pairwise : opcodeMap.Pairwise (fun r q => r.opc ≠ q.opc ∧ r.op ≠ q.op) := by decide

/-- Format N: bits 23:0 clear (30_encoding.md R82). -/
theorem Format.reservedClear_n (cmd : Word) : Format.n.reservedClear cmd = true ↔ cmd.toNat % 2 ^ 24 = 0 := by
  simp only [Format.reservedClear, Bool.and_eq_true, beq_iff_eq, ← BitVec.toNat_inj, arg8Field_toNat,
    rsvField_toNat, csraField_toNat]
  simp; omega

/-- Format A: bits 15:0 clear (30_encoding.md R83). -/
theorem Format.reservedClear_a (cmd : Word) : Format.a.reservedClear cmd = true ↔ cmd.toNat % 2 ^ 16 = 0 := by
  simp only [Format.reservedClear, Bool.and_eq_true, beq_iff_eq, ← BitVec.toNat_inj, rsvField_toNat, csraField_toNat]
  simp; omega

/-- Format C: bits 23:12 clear (30_encoding.md R84). -/
theorem Format.reservedClear_c (cmd : Word) :
    Format.c.reservedClear cmd = true ↔ cmd.toNat / 2 ^ 12 % 2 ^ 12 = 0 := by
  simp only [Format.reservedClear, Bool.and_eq_true, beq_iff_eq, ← BitVec.toNat_inj, arg8Field_toNat, rsvField_toNat]
  simp; omega

/-- A command word as a number: its three nonzero fields at their places (30_encoding.md R81). -/
theorem encode_toNat (i : Instr) :
    (encode i).toNat = i.opcode.code.toNat * 2 ^ 24 + i.arg8.toNat * 2 ^ 16 + i.csra.toNat := by
  unfold encode
  simp only [BitVec.toNat_append]
  have h1 := i.arg8.isLt
  have h2 := i.csra.isLt
  rw [← Nat.shiftLeft_add_eq_or_of_lt h1, ← Nat.shiftLeft_add_eq_or_of_lt h2,
    ← Nat.shiftLeft_add_eq_or_of_lt (b := (0#4).toNat) (by decide)]
  simp [Nat.shiftLeft_eq]
  omega

end Sys2Proof
end

