-- ==== Sys2Proof/Laws/Ring.lean ====
section
/-! SUPPORT. The ring buffer: the counts, the queue of unread records, and what a tick may do to them. -/

namespace Sys2Proof.Machine

/-! ## Counts -/

/-- `Available()` is below `CAPACITY` (40_ringbuffer.md R110). -/
theorem State.available_lt {s : State} (hr : s.rdPos < s.cfg.capacity) (hw : s.wrPos < s.cfg.capacity) :
    s.available < s.cfg.capacity := by unfold State.available; split <;> omega

theorem State.available_of_ring {s t : State} (hr : t.rdPos = s.rdPos) (hw : t.wrPos = s.wrPos)
    (hc : t.cfg = s.cfg) : t.available = s.available := by simp [State.available, hr, hw, hc]

/-- A put on a buffer that is not full makes one more record unread. -/
theorem State.available_rbPut {s : State} (hr : s.rdPos < s.cfg.capacity) (hw : s.wrPos < s.cfg.capacity)
    (hs : 0 < s.space) (rec : SampleRecord) : (s.rbPut rec).available = s.available + 1 := by
  have hn : s.wrPos + 1 < s.cfg.capacity ∨ s.wrPos + 1 = s.cfg.capacity := by omega
  unfold State.space State.available at *
  simp only [State.rbPut_rdPos, State.rbPut_wrPos, State.rbPut_cfg]
  rcases hn with hn | hn
  · simp only [Nat.mod_eq_of_lt hn]
    split at hs <;> split <;> omega
  · simp only [hn, Nat.mod_self]
    split at hs <;> split <;> omega

/-- A put on a buffer that is not full leaves one free slot less. -/
theorem State.space_rbPut {s : State} (hr : s.rdPos < s.cfg.capacity) (hw : s.wrPos < s.cfg.capacity)
    (hs : 0 < s.space) (rec : SampleRecord) : (s.rbPut rec).space + 1 = s.space := by
  have ha := State.available_rbPut hr hw hs rec
  unfold State.space at *
  rw [ha]
  simp only [State.rbPut_cfg]
  omega

/-- A put on a full buffer leaves it reading as empty (40_ringbuffer.md R115). -/
theorem State.available_rbPut_full {s : State} (hr : s.rdPos < s.cfg.capacity) (hw : s.wrPos < s.cfg.capacity)
    (hs : s.space = 0) (rec : SampleRecord) : (s.rbPut rec).available = 0 := by
  have hn : s.wrPos + 1 < s.cfg.capacity ∨ s.wrPos + 1 = s.cfg.capacity := by omega
  unfold State.space State.available at *
  simp only [State.rbPut_rdPos, State.rbPut_wrPos, State.rbPut_cfg]
  rcases hn with hn | hn
  · simp only [Nat.mod_eq_of_lt hn]
    split at hs <;> split <;> omega
  · simp only [hn, Nat.mod_self]
    split at hs <;> split <;> omega

@[simp] theorem State.afterRbGet_rdPos (s : State) : s.afterRbGet.rdPos = (s.rdPos + 1) % s.cfg.capacity := rfl

/-- What a get leaves unchanged: everything but `RDPOS`, `UNF` and the environment. -/
theorem State.afterRbGet_eq (s : State) :
    s.afterRbGet = { s with
      unf := s.unf || s.available == 0
      rdPos := (s.rdPos + 1) % s.cfg.capacity
      env := s.afterRbGet.env } := by
  unfold State.afterRbGet State.rbGetDraw
  split <;> rfl

@[simp] theorem State.afterRbGet_unf (s : State) : s.afterRbGet.unf = (s.unf || s.available == 0) := by
  rw [State.afterRbGet_eq]
@[simp] theorem State.afterRbGet_wrPos (s : State) : s.afterRbGet.wrPos = s.wrPos := by rw [State.afterRbGet_eq]
@[simp] theorem State.afterRbGet_slots (s : State) : s.afterRbGet.slots = s.slots := by rw [State.afterRbGet_eq]
@[simp] theorem State.afterRbGet_cfg (s : State) : s.afterRbGet.cfg = s.cfg := by rw [State.afterRbGet_eq]
@[simp] theorem State.afterRbGet_ovf (s : State) : s.afterRbGet.ovf = s.ovf := by rw [State.afterRbGet_eq]

/-- A get on a buffer that is not empty leaves one record less. -/
theorem State.available_afterRbGet {s : State} (hr : s.rdPos < s.cfg.capacity) (hw : s.wrPos < s.cfg.capacity)
    (ha : 0 < s.available) : s.afterRbGet.available + 1 = s.available := by
  have hn : s.rdPos + 1 < s.cfg.capacity ∨ s.rdPos + 1 = s.cfg.capacity := by omega
  unfold State.available at *
  simp only [State.afterRbGet_rdPos, State.afterRbGet_wrPos, State.afterRbGet_cfg]
  rcases hn with hn | hn
  · simp only [Nat.mod_eq_of_lt hn]
    split at ha <;> split <;> omega
  · simp only [hn, Nat.mod_self]
    split at ha <;> split <;> omega

/-- A get on an empty buffer leaves it reading as full (40_ringbuffer.md R117). -/
theorem State.available_afterRbGet_empty {s : State} (hr : s.rdPos < s.cfg.capacity)
    (hw : s.wrPos < s.cfg.capacity) (ha : s.available = 0) :
    s.afterRbGet.available = s.cfg.capacity - 1 := by
  have hn : s.rdPos + 1 < s.cfg.capacity ∨ s.rdPos + 1 = s.cfg.capacity := by omega
  unfold State.available at *
  simp only [State.afterRbGet_rdPos, State.afterRbGet_wrPos, State.afterRbGet_cfg]
  rcases hn with hn | hn
  · simp only [Nat.mod_eq_of_lt hn]
    split at ha <;> split <;> omega
  · simp only [hn, Nat.mod_self]
    split at ha <;> split <;> omega

/-! ## The queue of unread records -/

theorem State.unread_of_ring {s t : State} (hr : t.rdPos = s.rdPos) (hw : t.wrPos = s.wrPos)
    (hc : t.cfg = s.cfg) (hs : t.slots = s.slots) : t.unread = s.unread := by
  simp [State.unread, State.available_of_ring hr hw hc, hr, hc, hs]

/-- The index `available` places after `RDPOS` is `WRPOS`. -/
theorem State.wrPos_eq {s : State} (hr : s.rdPos < s.cfg.capacity) (hw : s.wrPos < s.cfg.capacity) :
    (s.rdPos + s.available) % s.cfg.capacity = s.wrPos := by
  unfold State.available
  split
  · rw [show s.rdPos + (s.wrPos - s.rdPos) = s.wrPos by omega, Nat.mod_eq_of_lt hw]
  · rw [show s.rdPos + (s.cfg.capacity + s.wrPos - s.rdPos) = s.wrPos + s.cfg.capacity by omega,
      Nat.add_mod_right, Nat.mod_eq_of_lt hw]

/-- An unread slot is not the slot at `WRPOS`. -/
theorem State.unread_ne_wrPos {s : State} (hr : s.rdPos < s.cfg.capacity) (hw : s.wrPos < s.cfg.capacity)
    {k : Nat} (hk : k < s.available) : (s.rdPos + k) % s.cfg.capacity ≠ s.wrPos := by
  have hlt := State.available_lt hr hw
  have h1 : s.rdPos + k < s.cfg.capacity ∨
      (s.cfg.capacity ≤ s.rdPos + k ∧ s.rdPos + k - s.cfg.capacity < s.cfg.capacity) := by omega
  unfold State.available at hk
  rcases h1 with h1 | ⟨h1, h2⟩
  · rw [Nat.mod_eq_of_lt h1]
    split at hk <;> omega
  · rw [Nat.mod_eq_sub_mod h1, Nat.mod_eq_of_lt h2]
    split at hk <;> omega

/-- A put on a buffer that is not full appends its record to the queue (40_ringbuffer.md R114). -/
theorem State.unread_rbPut {s : State} (hr : s.rdPos < s.cfg.capacity) (hw : s.wrPos < s.cfg.capacity)
    (hs : 0 < s.space) (rec : SampleRecord) : (s.rbPut rec).unread = s.unread ++ [some rec] := by
  unfold State.unread
  rw [State.available_rbPut hr hw hs, List.range_succ, List.map_append]
  simp only [State.rbPut_rdPos, State.rbPut_cfg, State.rbPut_slots, List.map_cons, List.map_nil]
  rw [State.wrPos_eq hr hw, Memory.read_write_same]
  congr 1
  apply List.map_congr_left
  intro k hk
  exact Memory.read_write_ne (State.unread_ne_wrPos hr hw (List.mem_range.mp hk)) _ _

/-- A get on a buffer that is not empty takes the head of the queue (40_ringbuffer.md R116). -/
theorem State.unread_afterRbGet {s : State} (hr : s.rdPos < s.cfg.capacity) (hw : s.wrPos < s.cfg.capacity)
    (ha : 0 < s.available) : s.unread = s.slots.read s.rdPos :: s.afterRbGet.unread := by
  unfold State.unread
  rw [← State.available_afterRbGet hr hw ha, List.range_succ_eq_map, List.map_cons, List.map_map]
  simp only [Nat.add_zero, Nat.mod_eq_of_lt hr, State.afterRbGet_rdPos, State.afterRbGet_cfg, State.afterRbGet_slots]
  congr 1
  apply List.map_congr_left
  intro k _
  simp only [Function.comp]
  rw [Nat.mod_add_mod]
  congr 2
  omega

/-! ## A list of puts -/

@[simp] theorem State.rbPuts_rdPos (s : State) (recs : List SampleRecord) : (s.rbPuts recs).rdPos = s.rdPos := by
  induction recs generalizing s with
  | nil => rfl
  | cons r rest ih => rw [State.rbPuts_cons, ih]; rfl

@[simp] theorem State.rbPuts_cfg (s : State) (recs : List SampleRecord) : (s.rbPuts recs).cfg = s.cfg := by
  induction recs generalizing s with
  | nil => rfl
  | cons r rest ih => rw [State.rbPuts_cons, ih]; rfl

theorem State.rbPuts_ovf_of (s : State) (recs : List SampleRecord) (h : s.ovf = true) : (s.rbPuts recs).ovf = true := by
  induction recs generalizing s with
  | nil => exact h
  | cons r rest ih => rw [State.rbPuts_cons]; exact ih _ (by simp [h])

theorem State.rbPuts_wrPos_lt {s : State} (recs : List SampleRecord) (hw : s.wrPos < s.cfg.capacity) :
    (s.rbPuts recs).wrPos < s.cfg.capacity := by
  induction recs generalizing s with
  | nil => exact hw
  | cons r rest ih =>
    rw [State.rbPuts_cons]
    exact ih (s := s.rbPut r) (by simpa using Nat.mod_lt _ (by omega))

/-- Puts no more than the free slots append their records to the queue. -/
theorem State.unread_rbPuts {s : State} (recs : List SampleRecord) (hr : s.rdPos < s.cfg.capacity)
    (hw : s.wrPos < s.cfg.capacity) (hs : recs.length ≤ s.space) :
    (s.rbPuts recs).unread = s.unread ++ recs.map some := by
  induction recs generalizing s with
  | nil => simp
  | cons r rest ih =>
    rw [List.length_cons] at hs
    have h1 := State.space_rbPut hr hw (by omega) r
    rw [State.rbPuts_cons, ih (s := s.rbPut r) (by simpa using hr) (by simpa using Nat.mod_lt _ (by omega)) (by omega),
      State.unread_rbPut hr hw (by omega)]
    simp

/-- Where a list of puts leaves `WRPOS`. -/
theorem State.rbPuts_wrPos {s : State} (recs : List SampleRecord) (hw : s.wrPos < s.cfg.capacity) :
    (s.rbPuts recs).wrPos = (s.wrPos + recs.length) % s.cfg.capacity := by
  induction recs generalizing s with
  | nil => exact (Nat.mod_eq_of_lt hw).symm
  | cons r rest ih =>
    rw [State.rbPuts_cons, ih (s := s.rbPut r) (by simpa using Nat.mod_lt _ (by omega))]
    simp only [State.rbPut_wrPos, State.rbPut_cfg, Nat.mod_add_mod, List.length_cons]
    congr 1
    omega

/-- A list of puts writes no slot but those at `WRPOS` and on, one for each put. -/
theorem State.read_rbPuts {s : State} (recs : List SampleRecord) (hw : s.wrPos < s.cfg.capacity) {k : Nat}
    (hk : ∀ j, j < recs.length → k ≠ (s.wrPos + j) % s.cfg.capacity) :
    (s.rbPuts recs).slots.read k = s.slots.read k := by
  induction recs generalizing s with
  | nil => rfl
  | cons r rest ih =>
    rw [State.rbPuts_cons, ih (s := s.rbPut r) (by simpa using Nat.mod_lt _ (by omega))]
    · rw [State.rbPut_slots]
      refine Memory.read_write_ne (fun e => hk 0 (by simp) ?_) _ _
      rw [e, Nat.add_zero, Nat.mod_eq_of_lt hw]
    · intro j hj e
      refine hk (j + 1) (by simpa using hj) ?_
      rw [e]
      simp only [State.rbPut_wrPos, State.rbPut_cfg, Nat.mod_add_mod]
      congr 1
      omega

/-- A list of puts sets `OVF` exactly if it is longer than the free slots. -/
theorem State.rbPuts_ovf {s : State} (recs : List SampleRecord) (hr : s.rdPos < s.cfg.capacity)
    (hw : s.wrPos < s.cfg.capacity) :
    (s.rbPuts recs).ovf = true ↔ s.ovf = true ∨ s.space < recs.length := by
  induction recs generalizing s with
  | nil => simp
  | cons r rest ih =>
    have ho : (s.rbPut r).ovf = (s.ovf || s.space == 0) := rfl
    rw [State.rbPuts_cons, ih (s := s.rbPut r) (by simpa using hr) (by simpa using Nat.mod_lt _ (by omega)), ho]
    simp only [Bool.or_eq_true, beq_iff_eq, List.length_cons]
    rcases Nat.eq_zero_or_pos s.space with hs | hs
    · simp [hs]
    · have hc := State.space_rbPut hr hw hs r
      constructor
      · rintro ((h | h) | h)
        · exact .inl h
        · omega
        · right; omega
      · rintro (h | h)
        · exact .inl (.inl h)
        · right; omega

/-- The puts of a slot's update are as many as it counts. -/
theorem Activity.length_stepPuts (a : Activity) (now : Word) : (a.stepPuts now).length = a.putCount now := by
  unfold Activity.stepPuts Activity.putCount
  by_cases h : a.smp = false ∨ now.toNat < a.offset.toNat
  · rw [if_pos h.symm, if_pos h]
    rfl
  · rw [if_neg (fun c => h c.symm), if_neg h]
    by_cases he : a.elapsed now = 0
    · rw [if_pos he, if_pos he]
      cases a.ison <;> by_cases hd : a.duration.toNat = 0 <;> simp [hd]
    · rw [if_neg he, if_neg he]
      cases a.ison <;> by_cases hd : a.duration.toNat ≤ a.elapsed now <;> simp [hd]

/-! ## What a tick does to the ring -/

/-- The ring of `t` is the ring of `s` after a list of puts. -/
def RingPuts (s t : State) (recs : List SampleRecord) : Prop :=
  t.slots = (s.rbPuts recs).slots ∧ t.wrPos = (s.rbPuts recs).wrPos ∧ t.ovf = (s.rbPuts recs).ovf ∧
    t.rdPos = s.rdPos ∧ t.cfg = s.cfg

theorem RingPuts.refl (s : State) : RingPuts s s [] := ⟨rfl, rfl, rfl, rfl, rfl⟩

/-- Puts read and write the ring alone. -/
theorem RingPuts.congr {s t : State} (recs : List SampleRecord) (h : RingPuts s t []) :
    RingPuts (s.rbPuts recs) (t.rbPuts recs) [] := by
  induction recs generalizing s t with
  | nil => exact h
  | cons r rest ih =>
    obtain ⟨h1, h2, h3, h4, h5⟩ := h
    simp only [State.rbPuts_nil] at h1 h2 h3
    refine ih ⟨?_, ?_, ?_, ?_, ?_⟩ <;>
      simp [h1, h2, h3, h4, h5, State.space, State.available]

theorem RingPuts.trans {s t u : State} {r1 r2 : List SampleRecord} (h : RingPuts s t r1) (k : RingPuts t u r2) :
    RingPuts s u (r1 ++ r2) := by
  have hc := RingPuts.congr r2 (s := s.rbPuts r1) (t := t) (by
    obtain ⟨h1, h2, h3, h4, h5⟩ := h
    exact ⟨h1, h2, h3, by simpa using h4, by simpa using h5⟩)
  obtain ⟨h1, h2, h3, h4, h5⟩ := h
  obtain ⟨k1, k2, k3, k4, k5⟩ := k
  obtain ⟨c1, c2, c3, -, -⟩ := hc
  simp only [State.rbPuts_nil] at c1 c2 c3
  rw [RingPuts, State.rbPuts_append]
  exact ⟨k1.trans c1, k2.trans c2, k3.trans c3, k4.trans h4, k5.trans h5⟩

theorem RingPuts.setAct (s : State) (i : Nat) (a : Activity) : RingPuts s (s.setAct i a) [] :=
  ⟨rfl, rfl, rfl, rfl, rfl⟩

theorem RingPuts.rbPuts (s : State) (recs : List SampleRecord) : RingPuts s (s.rbPuts recs) recs :=
  ⟨rfl, rfl, rfl, State.rbPuts_rdPos .., State.rbPuts_cfg ..⟩

theorem RingPuts.afterAdc (s : State) (i : Nat) : RingPuts s (s.afterAdc i) [] := ⟨rfl, rfl, rfl, rfl, rfl⟩

theorem RingPuts.afterAbsTime (s : State) (i : Nat) : RingPuts s (s.afterAbsTime i) [] := ⟨rfl, rfl, rfl, rfl, rfl⟩

theorem RingPuts.sampleTime (s : State) (i : Nat) : RingPuts s (s.sampleTime i) [] := by
  unfold State.sampleTime
  split
  · exact (RingPuts.afterAbsTime s i).trans (RingPuts.setAct _ _ _)
  · exact RingPuts.refl s

theorem RingPuts.sample (s : State) (i : Nat) : RingPuts s (s.sample i) [] :=
  ((RingPuts.sampleTime s i).trans (RingPuts.setAct _ _ _)).trans
    ((RingPuts.afterAdc _ i).trans (RingPuts.setAct _ _ _))

/-- What `ActUpdate` does to the ring: the puts of its callbacks. -/
theorem RingPuts.actUpdate (s : State) (i : Nat) (now : Word) (h : i < s.acts.length) :
    RingPuts s (s.actUpdate i now) ((s.act i).stepPuts now) := by
  have h1 : RingPuts s (s.taskStep i now) ((s.act i).stepPuts now) := by
    rw [State.taskStep_eq s i now h]
    simpa using (RingPuts.rbPuts s _).trans (RingPuts.setAct _ i _)
  unfold State.actUpdate State.sampleIfOn
  split
  · simpa using h1.trans (RingPuts.sample _ i)
  · exact h1

/-- The slot store stays canonical and in range, and `WRPOS` in range, under puts. -/
theorem RingPuts.shape {s t : State} {recs : List SampleRecord} (h : RingPuts s t recs)
    (hw : s.wrPos < s.cfg.capacity) (hm : Memory.wf s.slots) (hl : ∀ x ∈ s.slots, x.1 < s.cfg.capacity) :
    t.wrPos < t.cfg.capacity ∧ Memory.wf t.slots ∧ ∀ x ∈ t.slots, x.1 < t.cfg.capacity := by
  obtain ⟨h1, h2, -, -, h5⟩ := h
  rw [h1, h2, h5]
  clear h1 h2 h5
  induction recs generalizing s with
  | nil => exact ⟨hw, hm, hl⟩
  | cons r rest ih =>
    simp only [State.rbPuts_cons]
    exact ih (s := s.rbPut r) (by simpa using Nat.mod_lt _ (by omega)) (Memory.wf_write hm) (Memory.lt_write hw hl)

end Sys2Proof.Machine
end

