-- ==== Sys2Proof/Laws/Timer.lean ====
section
/-! SUPPORT. The loops of START and STOP over the set, what they leave, and the order of a tick's updates. -/

namespace Sys2Proof.Machine

/-! ## A loop that writes each slot once -/

/-- A loop whose rounds each write their own slot by one function of it. -/
theorem forBelow_setAct {f : Nat → State → State} {g : Activity → Activity}
    (hf : ∀ i s, f i s = s.setAct i (g (s.act i))) (n : Nat) (s : State) :
    forBelow n f s = { s with acts := (forBelow n f s).acts } ∧
      (forBelow n f s).acts.length = s.acts.length ∧
      ∀ j, (forBelow n f s).act j = if j < n ∧ j < s.acts.length then g (s.act j) else s.act j := by
  induction n with
  | zero => exact ⟨rfl, rfl, fun j => by simp [forBelow]⟩
  | succ k ih =>
    obtain ⟨h1, h2, h3⟩ := ih
    have e : forBelow (k + 1) f s = (forBelow k f s).setAct k (g ((forBelow k f s).act k)) := hf k _
    rw [e]
    refine ⟨?_, by simpa using h2, fun j => ?_⟩
    · conv_lhs => rw [h1]
      rfl
    · rw [State.act_setAct, h2, h3, h3]
      by_cases hj : j = k
      · subst hj
        by_cases hl : j < s.acts.length <;> simp [hl]
      · have h4 : ¬ (k = j ∧ k < s.acts.length) := fun hc => hj hc.1.symm
        have h5 : (j < k + 1 ∧ j < s.acts.length) ↔ (j < k ∧ j < s.acts.length) := by omega
        rw [if_neg h4]
        simp only [h5]

/-- The slot `TaskStart` leaves (41_periodic_task.md R141). -/
def Activity.afterStart (a : Activity) : Activity :=
  if a.smp then { a with ison := false, ts := 0, cnt := 0, sum := 0 } else { a with ison := false }

theorem State.taskStart_eq (s : State) (i : Nat) : s.taskStart i = s.setAct i (s.act i).afterStart := by
  unfold State.taskStart Activity.afterStart
  by_cases hs : (s.act i).smp = true
  · have hl : i < s.acts.length := by
      by_contra hn
      rw [State.act_of_length_le (by omega)] at hs
      simp [Activity.reset] at hs
    simp only [hs, if_true, State.samplerStart, State.clearAccumulators, State.setIson,
      State.act_setAct_same _ hl, State.setAct_setAct]
  · rw [if_neg hs, if_neg hs]
    rfl

/-- Everything `StopSequence()` does (43_dispatcher.md R187). -/
theorem State.stopSequence_spec (s : State) :
    s.stopSequence = { s with run := false, actn := 0, acts := s.stopSequence.acts } ∧
      s.stopSequence.acts.length = s.acts.length ∧
      ∀ j, s.stopSequence.act j = if j < s.actn then { s.act j with ison := false } else s.act j := by
  obtain ⟨h1, h2, h3⟩ := forBelow_setAct (f := fun i t => t.taskStop i) (g := fun a => { a with ison := false })
    (fun _ _ => rfl) s.actn { s with run := false }
  refine ⟨?_, h2, fun j => ?_⟩
  · unfold State.stopSequence
    rw [h1]
  · have := h3 j
    have e : s.stopSequence.act j = (forBelow s.actn (fun i t => t.taskStop i) { s with run := false }).act j := rfl
    rw [e, this]
    by_cases hj : j < s.actn
    · by_cases hl : j < s.acts.length
      · simp only [hj, hl, and_self, if_true]; rfl
      · simp only [hj, hl, and_false, if_false, if_true]
        have hr : s.act j = Activity.reset := State.act_of_length_le (by omega)
        have hr' : ({ s with run := false } : State).act j = Activity.reset := State.act_of_length_le (by simpa using hl)
        rw [hr, hr']; rfl
    · simp only [hj, false_and, if_false]; rfl

/-- Everything START does before its draw (43_dispatcher.md R186). -/
theorem State.beginRun_spec (s : State) (n : Nat) :
    s.beginRun n = { s with run := false, actn := n, clock := 0, acts := (s.beginRun n).acts } ∧
      (s.beginRun n).acts.length = s.acts.length ∧
      ∀ j, (s.beginRun n).act j =
        if j < n then (s.act j).afterStart else if j < s.actn then { s.act j with ison := false } else s.act j := by
  obtain ⟨k1, k2, k3⟩ := State.stopSequence_spec s
  obtain ⟨h1, h2, h3⟩ := forBelow_setAct (f := fun i t => t.taskStart i) (g := Activity.afterStart)
    (fun i t => State.taskStart_eq t i) n { s.stopSequence with actn := n }
  refine ⟨?_, h2.trans k2, fun j => ?_⟩
  · unfold State.beginRun
    rw [h1, k1]
  · have e : (s.beginRun n).act j =
        (forBelow n (fun i t => t.taskStart i) { s.stopSequence with actn := n }).act j := rfl
    have e2 : ({ s.stopSequence with actn := n } : State).act j = s.stopSequence.act j := rfl
    have l2 : ({ s.stopSequence with actn := n } : State).acts.length = s.acts.length := k2
    rw [e, h3 j, e2, l2, k3 j]
    by_cases hj : j < n
    · by_cases hl : j < s.acts.length
      · simp only [hj, hl, and_self, if_true]
        by_cases ha : j < s.actn
        · simp only [ha, if_true]; rfl
        · simp only [ha, if_false]
      · have hr : s.act j = Activity.reset := State.act_of_length_le (by omega)
        simp only [hj, hl, and_false, if_false, if_true, hr]
        by_cases ha : j < s.actn
        · simp only [ha, if_true]; rfl
        · simp only [ha, if_false]; rfl
    · simp only [hj, false_and, if_false]

/-- START's last part either fails or enables the ticks (43_dispatcher.md R186, 60_exceptions.md R247). -/
theorem State.enableTicks_cases (s : State) :
    (s.tfailAnswer = true ∧ s.enableTicks = s.afterTfail.failTimer) ∨
      (s.tfailAnswer = false ∧ s.enableTicks = ({ s.afterTfail with run := true }).respond 0 0 0 0) := by
  unfold State.enableTicks
  cases h : s.tfailAnswer <;> simp

/-- A timer can fail only if `TIMER_CAN_FAIL` (00_scope.md R7). -/
theorem State.timerCanFail_of_tfail {s : State} (h : s.tfailAnswer = true) : s.cfg.timerCanFail = true := by
  unfold State.tfailAnswer at h
  exact (Bool.and_eq_true_iff.mp h).1

/-! ## The order of a tick -/

/-- A pass updates the slots of its class in increasing index; the classes are those at the start of the pass, since
no update changes a slot's class (43_dispatcher.md R182). -/
theorem State.pass_eq_foldl (s : State) (n : Nat) (sec : Bool) (now : Word) :
    s.pass n sec now =
      ((List.range n).filter (fun i => (s.act i).sec == sec)).foldl (fun t i => t.actUpdate i now) s := by
  unfold State.pass
  induction n with
  | zero => rfl
  | succ k ih =>
    rw [List.range_succ, List.filter_append, List.foldl_append, ← ih]
    have hs : ((forBelow k (fun i t => if (t.act i).sec = sec then t.actUpdate i now else t) s).act k).sec
        = (s.act k).sec := by
      have := (TickFrame.pass s k sec now).act k
      unfold State.pass at this
      rw [this]
    simp only [forBelow]
    rw [hs]
    by_cases h : (s.act k).sec = sec
    · simp [h]
    · simp [h]

/-- The two passes of a tick as one list of updates (43_dispatcher.md R181, R182). -/
theorem State.tick_eq_foldl (s : State) :
    s.tick = (((List.range s.actn).filter (fun i => !(s.act i).sec)) ++
      ((List.range s.actn).filter (fun i => (s.act i).sec))).foldl
        (fun t i => t.actUpdate i (s.clock + 1)) s.advanceClock := by
  have h2 : (fun i => ((s.advanceClock.pass s.actn false (s.clock + 1)).act i).sec == true)
      = fun i => (s.act i).sec := by
    funext i
    rw [(TickFrame.pass s.advanceClock s.actn false (s.clock + 1)).act i]
    simp
  have h1 : (fun i => (s.advanceClock.act i).sec == false) = fun i => !(s.act i).sec := by
    funext i
    simp
  unfold State.tick
  rw [State.pass_eq_foldl _ s.actn true, h2, State.pass_eq_foldl _ s.actn false, h1, List.foldl_append]

/-- A run of updates of slots other than `j` leaves slot `j`. -/
theorem State.act_foldl_of_not_mem {l : List Nat} {now : Word} {j : Nat} (h : j ∉ l) (s : State) :
    (l.foldl (fun t i => t.actUpdate i now) s).act j = s.act j := by
  induction l generalizing s with
  | nil => rfl
  | cons i rest ih =>
    simp only [List.mem_cons, not_or] at h
    rw [List.foldl_cons, ih h.2, (SlotFrame.actUpdate s i now).others j h.1]

/-- The slots a tick updates: those of the set, each once. -/
theorem State.tickOrder_nodup (s : State) :
    (((List.range s.actn).filter (fun i => !(s.act i).sec)) ++
      ((List.range s.actn).filter (fun i => (s.act i).sec))).Nodup := by
  refine List.Nodup.append (List.nodup_range.filter _) (List.nodup_range.filter _) ?_
  intro i h1 h2
  simp only [List.mem_filter] at h1 h2
  simp [h2.2] at h1

/-- What updates of slots, each once, do to the ring: as many puts as the slots count. -/
theorem RingPuts.foldl {l : List Nat} {now : Word} (hnd : l.Nodup) {s : State} (hl : ∀ i ∈ l, i < s.acts.length) :
    ∃ recs, RingPuts s (l.foldl (fun t i => t.actUpdate i now) s) recs ∧
      recs.length = (l.map (fun i => (s.act i).putCount now)).sum := by
  induction l generalizing s with
  | nil => exact ⟨[], RingPuts.refl s, rfl⟩
  | cons i rest ih =>
    have hf := TickFrame.actUpdate s i now
    obtain ⟨hi, hnd⟩ := List.nodup_cons.mp hnd
    obtain ⟨recs, h1, h2⟩ := ih hnd (s := s.actUpdate i now) fun j hj => by
      rw [hf.acts_length]
      exact hl j (List.mem_cons_of_mem _ hj)
    refine ⟨_, (RingPuts.actUpdate s i now (hl i List.mem_cons_self)).trans h1, ?_⟩
    rw [List.length_append, h2, Activity.length_stepPuts, List.map_cons, List.sum_cons]
    congr 2
    apply List.map_congr_left
    intro j hj
    rw [(SlotFrame.actUpdate s i now).others j fun e => hi (e ▸ hj)]

/-- What a tick does to the ring: as many puts as `tickPuts` counts. -/
theorem RingPuts.tick {s : State} (hn : s.actn ≤ s.acts.length) :
    ∃ recs, RingPuts s s.tick recs ∧ recs.length = s.tickPuts := by
  have hp := List.filter_append_perm (fun i => !(s.act i).sec) (List.range s.actn)
  simp only [Bool.not_not] at hp
  obtain ⟨recs, h1, h2⟩ := RingPuts.foldl (now := s.clock + 1) (State.tickOrder_nodup s) (s := s.advanceClock)
    fun i hi => by
      have := List.mem_range.mp ((hp.mem_iff).mp hi)
      simpa using (show i < s.acts.length by omega)
  have h0 : RingPuts s s.advanceClock [] := ⟨rfl, rfl, rfl, rfl, rfl⟩
  rw [← State.tick_eq_foldl] at h1
  exact ⟨recs, h0.trans h1, h2.trans (hp.map _).sum_eq⟩

/-- What a property of a slot's own update gives for a tick: a slot outside the set is unchanged, and a slot of the
set is what one `ActUpdate`, in some state that agrees on the slot, the clock and the parameters, leaves. -/
theorem State.act_tick (s : State) (j : Nat) :
    (s.actn ≤ j → s.tick.act j = s.act j) ∧
    (j < s.actn → ∃ t, TickFrame s t ∧ t.act j = s.act j ∧ t.clock = s.clock + 1 ∧
      s.tick.act j = (t.actUpdate j (s.clock + 1)).act j) := by
  rw [State.tick_eq_foldl]
  have hmem : ∀ i, i ∈ (((List.range s.actn).filter (fun i => !(s.act i).sec)) ++
      ((List.range s.actn).filter (fun i => (s.act i).sec))) ↔ i < s.actn := by
    intro i
    simp only [List.mem_append, List.mem_filter, List.mem_range]
    cases (s.act i).sec <;> simp
  have hnd := State.tickOrder_nodup s
  revert hmem hnd
  generalize (((List.range s.actn).filter (fun i => !(s.act i).sec)) ++
      ((List.range s.actn).filter (fun i => (s.act i).sec))) = l
  intro hmem hnd
  refine ⟨fun hj => ?_, fun hj => ?_⟩
  · rw [State.act_foldl_of_not_mem (fun h => by have := (hmem j).mp h; omega)]
    rfl
  · obtain ⟨l1, l2, rfl⟩ := List.append_of_mem ((hmem j).mpr hj)
    rw [List.nodup_append] at hnd
    have hn2 : j ∉ l2 := (List.nodup_cons.mp hnd.2.1).1
    have hn1 : j ∉ l1 := fun h => (hnd.2.2 j h j List.mem_cons_self) rfl
    rw [List.foldl_append, List.foldl_cons, State.act_foldl_of_not_mem hn2]
    refine ⟨l1.foldl (fun t i => t.actUpdate i (s.clock + 1)) s.advanceClock, ?_, ?_, ?_, rfl⟩
    · refine (TickFrame.advanceClock s).trans ?_
      clear hn1 hnd hmem
      generalize s.advanceClock = u
      induction l1 generalizing u with
      | nil => exact TickFrame.refl u
      | cons i rest ih => rw [List.foldl_cons]; exact (TickFrame.actUpdate u i _).trans (ih _)
    · rw [State.act_foldl_of_not_mem hn1, State.act_advanceClock]
    · have : ∀ (l : List Nat) (u : State), (l.foldl (fun t i => t.actUpdate i (s.clock + 1)) u).clock = u.clock := by
        intro l
        induction l with
        | nil => intro u; rfl
        | cons i rest ih => intro u; rw [List.foldl_cons, ih, (SlotFrame.actUpdate u i _).clock]
      rw [this]; rfl

end Sys2Proof.Machine
end

