-- ==== Sys2Proof/Laws/Exec.lean ====
section
/-! SUPPORT. Everything a command and a step can do, said once, and the CSR map as it is used. -/

namespace Sys2Proof.Machine

/-! ## The CSR map -/

theorem csrAt_act {nAct i k : Nat} (hi : i < nAct) (hk : k < 8) :
    csrAt nAct (0x100 + 8 * i + k) = some (.act i (.ofIndex k)) := by
  unfold csrAt
  repeat rw [if_neg (by omega)]
  rw [if_pos (by omega)]
  have h1 : (0x100 + 8 * i + k - 0x100) / 8 = i := by omega
  have h2 : (0x100 + 8 * i + k - 0x100) % 8 = k := by omega
  rw [h1, h2]

/-- One row of the CSR map: either it is this row, or the search goes on. -/
theorem csrAt_row {p : Prop} [Decidable p] {x c : Csr} {r : Option Csr} {P : Prop}
    (h : (if p then some x else r) = some c) (here : p → x = c → P) (later : r = some c → P) : P := by
  split at h
  · rename_i hp
    exact here hp (Option.some.inj h)
  · exact later h

/-- The registers an accepted CSRW may name, with their addresses (10_state.md R46). -/
theorem csrAt_writable {nAct a : Nat} {c : Csr} (h : csrAt nAct a = some c) (hw : c.access ≠ .ro) :
    (a = 0x000 ∧ c = .status) ∨ (a = 0x010 ∧ c = .cfgOffset) ∨ (a = 0x011 ∧ c = .cfgPeriod) ∨
      (a = 0x012 ∧ c = .cfgDuration) ∨ (a = 0x013 ∧ c = .cfgFlags) := by
  refine csrAt_row h (fun ha hc => .inl ⟨ha, hc.symm⟩) fun h => ?_
  iterate 8 refine csrAt_row h (fun _ hc => absurd rfl (hc ▸ hw)) fun h => ?_
  refine csrAt_row h (fun ha hc => .inr (.inl ⟨ha, hc.symm⟩)) fun h => ?_
  refine csrAt_row h (fun ha hc => .inr (.inr (.inl ⟨ha, hc.symm⟩))) fun h => ?_
  refine csrAt_row h (fun ha hc => .inr (.inr (.inr (.inl ⟨ha, hc.symm⟩)))) fun h => ?_
  refine csrAt_row h (fun ha hc => .inr (.inr (.inr (.inr ⟨ha, hc.symm⟩)))) fun h => ?_
  exact csrAt_row h (fun _ hc => absurd rfl (hc ▸ hw)) fun h => absurd h (by simp)

theorem wordOfBits_getLsbD (bs : List Bool) (b : Nat) (hb : b < 32) :
    (wordOfBits bs).getLsbD b = bs.getD b false := by
  simp [wordOfBits, hb]

theorem State.allConfigured_iff (s : State) (n : Nat) :
    s.allConfigured n = true ↔ ∀ i, i < n → (s.act i).conf = true := by
  simp [State.allConfigured]

/-! ## Commands -/

/-- The values ACTCFG accepts (43_dispatcher.md R189). -/
structure State.StagedOk (s : State) : Prop where
  flags : flagsBad s.cfgFlags = false
  period : 1 ≤ s.cfgPeriod.toNat
  duration_le : s.cfgDuration.toNat ≤ s.cfgPeriod.toNat
  duration_range : s.cfgDuration.toNat ≤ 0x7FFFFFFF

/-- Which command raises which cause by a refusal (60_exceptions.md R242; the failure of the timer is no refusal). -/
def Cause.raisedBy (c : Cause) (i : Instr) : Bool :=
  match i with
  | .nop => false
  | .init => c == .fatalState
  | .start _ => c == .fatalState || c == .notInit || c == .badCount || c == .unconfigured
  | .stop => false
  | .isactive => false
  | .actcfg _ => c == .badIndex || c == .busy || c.isConfig
  | .avail => false
  | .space => false
  | .get => false
  | .flush => false
  | .csrr _ => c == .csrUnmapped
  | .csrw _ _ => c == .csrUnmapped || c == .csrReadOnly

/-- No command that decodes raises a cause of the decoder. -/
theorem Cause.ne_of_raisedBy {c : Cause} {i : Instr} (h : c.raisedBy i = true) :
    c ≠ .illegalOpcode ∧ c ≠ .reservedField := by
  constructor <;> (rintro rfl; cases i <;> simp [Cause.raisedBy, Cause.isConfig] at h)

/-- Only ACTCFG raises a configuration-value cause. -/
theorem Cause.isConfig_of_raisedBy {c : Cause} {i : Instr} (h : c.raisedBy i = true) (hc : c.isConfig = true) :
    ∃ k, i = .actcfg k := by
  cases c <;> simp [Cause.isConfig] at hc <;> cases i <;> simp [Cause.raisedBy] at h ⊢

/-- Everything a command can do: refuse, respond, or its own effect under its own conditions. -/
inductive Executed (s : State) : Instr → State → Prop where
  | refused (i : Instr) (c : Cause) (h : c.raisedBy i = true) : Executed s i (s.refuse c)
  | responded (i : Instr) (r0 : Word)
      (h : i = .nop ∨ i = .init ∨ i = .isactive ∨ i = .avail ∨ i = .space ∨ ∃ a, i = .csrr a) :
      Executed s i (s.respond r0 0 0 0)
  | initFail (h : s.fatal = false) (k : s.tinit = false) : Executed s .init s.afterTfail.failTimer
  | initDone (h : s.fatal = false) (k : s.tinit = false) :
      Executed s .init (({ s.afterTfail with tinit := true }).respond 0 0 0 0)
  | startFail (n : Nat) (h : s.fatal = false) (k : s.tinit = true) (hn : n ≤ s.cfg.nAct)
      (hc : ∀ i, i < n → (s.act i).conf = true) : Executed s (.start n) (s.beginRun n).afterTfail.failTimer
  | startDone (n : Nat) (h : s.fatal = false) (k : s.tinit = true) (hn : n ≤ s.cfg.nAct)
      (hc : ∀ i, i < n → (s.act i).conf = true) :
      Executed s (.start n) (({ (s.beginRun n).afterTfail with run := true }).respond 0 0 0 0)
  | stopped : Executed s .stop (s.stopSequence.respond 0 0 0 0)
  | configured (k : Nat) (h : k < s.cfg.nAct) (hr : s.run = false) (ho : s.StagedOk) :
      Executed s (.actcfg k) ((s.setAct k s.stagedActivity).respond 0 0 0 0)
  | got : Executed s .get (s.afterRbGet.respond s.rbGetRecord.pinWord s.rbGetRecord.timestamp s.rbGetRecord.count
      s.rbGetRecord.sum)
  | flushed : Executed s .flush (({ s with rdPos := s.wrPos }).respond 0 0 0 0)
  | cleared (v : Word) : Executed s (.csrw 0x000 v) ((s.writeStatus v).respond 0 0 0 0)
  | stagedOffset (v : Word) : Executed s (.csrw 0x010 v) (({ s with cfgOffset := v }).respond 0 0 0 0)
  | stagedPeriod (v : Word) : Executed s (.csrw 0x011 v) (({ s with cfgPeriod := v }).respond 0 0 0 0)
  | stagedDuration (v : Word) : Executed s (.csrw 0x012 v) (({ s with cfgDuration := v }).respond 0 0 0 0)
  | stagedFlags (v : Word) : Executed s (.csrw 0x013 v) (({ s with cfgFlags := v }).respond 0 0 0 0)

theorem executed_init (s : State) : ∃ t, exec .init s = .next t ∧ Executed s .init t := by
  simp only [exec, execInit]
  split
  · exact ⟨_, rfl, .refused _ _ rfl⟩
  · rename_i hf
    split
    · exact ⟨_, rfl, .responded _ _ (by simp)⟩
    · rename_i ht
      refine ⟨_, rfl, ?_⟩
      unfold State.initTimer
      split
      · exact .initFail (by simpa using hf) (by simpa using ht)
      · exact .initDone (by simpa using hf) (by simpa using ht)

theorem executed_start (s : State) (n : Nat) : ∃ t, exec (.start n) s = .next t ∧ Executed s (.start n) t := by
  simp only [exec, execStart]
  split
  · exact ⟨_, rfl, .refused _ _ rfl⟩
  · rename_i hf
    split
    · exact ⟨_, rfl, .refused _ _ rfl⟩
    · rename_i ht
      split
      · exact ⟨_, rfl, .refused _ _ rfl⟩
      · rename_i hn
        split
        · exact ⟨_, rfl, .refused _ _ rfl⟩
        · rename_i hc
          have hc' := (State.allConfigured_iff s n).mp (by simpa using hc)
          refine ⟨_, rfl, ?_⟩
          rcases State.enableTicks_cases (s.beginRun n) with ⟨-, h⟩ | ⟨-, h⟩ <;> rw [h]
          · exact .startFail n (by simpa using hf) (by simpa using ht) (by omega) hc'
          · exact .startDone n (by simpa using hf) (by simpa using ht) (by omega) hc'

theorem executed_actcfg (s : State) (k : Nat) : ∃ t, exec (.actcfg k) s = .next t ∧ Executed s (.actcfg k) t := by
  simp only [exec, execActcfg]
  split
  · exact ⟨_, rfl, .refused _ _ rfl⟩
  · split
    · exact ⟨_, rfl, .refused _ _ rfl⟩
    · rename_i hr
      split
      · exact ⟨_, rfl, .refused _ _ rfl⟩
      · rename_i hb
        split
        · exact ⟨_, rfl, .refused _ _ rfl⟩
        · split
          · exact ⟨_, rfl, .refused _ _ rfl⟩
          · split
            · exact ⟨_, rfl, .refused _ _ rfl⟩
            · exact ⟨_, rfl, .configured k (by omega) (by simpa using hr)
                ⟨by simpa using hb, by omega, by omega, by omega⟩⟩

theorem executed_csrw (s : State) (a : Nat) (v : Word) :
    ∃ t, exec (.csrw a v) s = .next t ∧ Executed s (.csrw a v) t := by
  simp only [exec, execCsrw]
  cases hc : csrAt s.cfg.nAct a with
  | none => exact ⟨_, rfl, .refused _ _ rfl⟩
  | some c =>
    by_cases hw : c.access = .ro
    · simp only [hw]
      exact ⟨_, rfl, .refused _ _ rfl⟩
    · have hx : (match c.access with
          | .ro => .next (s.refuse .csrReadOnly)
          | .rw => .next ((s.writeCsr c v).respond 0 0 0 0)
          | .status => .next ((s.writeCsr c v).respond 0 0 0 0) : StepOutcome) =
          .next ((s.writeCsr c v).respond 0 0 0 0) := by
        cases h : c.access
        · exact absurd h hw
        · rfl
        · rfl
      refine ⟨_, hx, ?_⟩
      rcases csrAt_writable hc hw with ⟨rfl, rfl⟩ | ⟨rfl, rfl⟩ | ⟨rfl, rfl⟩ | ⟨rfl, rfl⟩ | ⟨rfl, rfl⟩
      · exact .cleared v
      · exact .stagedOffset v
      · exact .stagedPeriod v
      · exact .stagedDuration v
      · exact .stagedFlags v

/-- Every command answers a next state, one of those above. -/
theorem executed (i : Instr) (s : State) : ∃ t, exec i s = .next t ∧ Executed s i t := by
  cases i with
  | nop => exact ⟨_, rfl, .responded _ _ (by simp)⟩
  | init => exact executed_init s
  | start n => exact executed_start s n
  | stop => exact ⟨_, rfl, .stopped⟩
  | isactive => exact ⟨_, rfl, .responded _ _ (by simp)⟩
  | actcfg k => exact executed_actcfg s k
  | avail => exact ⟨_, rfl, .responded _ _ (by simp)⟩
  | space => exact ⟨_, rfl, .responded _ _ (by simp)⟩
  | get => exact ⟨_, rfl, .got⟩
  | flush => exact ⟨_, rfl, .flushed⟩
  | csrr a =>
    simp only [exec, execCsrr]
    split
    · exact ⟨_, rfl, .refused _ _ rfl⟩
    · exact ⟨_, rfl, .responded _ _ (by simp)⟩
  | csrw a v => exact executed_csrw s a v

/-- What a command can have done, given that it answered. -/
theorem exec_cases {i : Instr} {s t : State} (h : exec i s = .next t) : Executed s i t := by
  obtain ⟨u, hu, he⟩ := executed i s
  rw [hu] at h
  cases h
  exact he

/-! ## Steps -/

/-- Everything a step that answers can do. -/
inductive Stepped (s : State) : State → Prop where
  | command (cmd wdata : Word) (rest : List Event) (i : Instr) (t : State)
      (h : s.agenda = .command cmd wdata :: rest) (hd : decode cmd wdata = .instr i)
      (he : Executed (s.took (.command cmd wdata) rest) i t) : Stepped s t
  | rejected (cmd wdata : Word) (rest : List Event) (e : DecodeError)
      (h : s.agenda = .command cmd wdata :: rest) (hd : decode cmd wdata = .reject e) :
      Stepped s ((s.took (.command cmd wdata) rest).refuse (causeOfDecode e))
  | ticked (rest : List Event) (h : s.agenda = [] ∧ rest = [] ∨ s.agenda = .tick :: rest) (hr : s.run = true) :
      Stepped s (s.took .tick rest).tick
  | dropped (rest : List Event) (h : s.agenda = .tick :: rest) (hr : s.run = false) :
      Stepped s { s with agenda := rest }
  | reset (rest : List Event) (h : s.agenda = .reset :: rest) :
      Stepped s (s.took .reset rest).resetEvent

theorem step_cases {s t : State} (h : step s = .next t) : Stepped s t := by
  cases ha : s.agenda with
  | nil =>
    cases hr : s.run with
    | false => simp [step, State.nextAction, ha, hr] at h
    | true =>
      simp [step, State.nextAction, ha, hr] at h
      rw [← h]
      exact .ticked [] (.inl ⟨ha, rfl⟩) hr
  | cons e rest =>
    cases e with
    | command cmd wdata =>
      cases hd : decode cmd wdata with
      | instr i =>
        simp [step, State.nextAction, ha, State.takeCommand, hd] at h
        exact .command cmd wdata rest i t ha hd (exec_cases h)
      | reject e =>
        simp [step, State.nextAction, ha, State.takeCommand, hd] at h
        rw [← h]
        exact .rejected cmd wdata rest e ha hd
    | tick =>
      cases hr : s.run with
      | false =>
        have hx : step s = .next { s with agenda := rest } := by simp only [step, State.nextAction, ha, hr]; rfl
        rw [hx] at h
        cases h
        exact .dropped rest ha hr
      | true =>
        have hx : step s = .next (s.takeTick rest) := by
          simp only [step, State.nextAction, ha, hr, if_true]
        rw [hx] at h
        cases h
        exact .ticked rest (.inr ha) hr
    | reset =>
      simp [step, State.nextAction, ha] at h
      rw [← h]
      exact .reset rest ha

end Sys2Proof.Machine
end

