-- ==== Sys2Proof/Laws/PerInstr.lean ====
section
/-! SUPPORT. What holds of every command as syntax, one lemma per constructor. -/

namespace Sys2Proof.Laws.TableRow

/-- The command word of a well-formed command fits its row of spec/opcode_table.json: under the mask of its format it
is the row's match word (30_encoding.md R82 to R84, R87). -/
def Statement (i : Instr) : Prop :=
  i.WellFormed → encode i &&& i.opcode.format.mask = i.opcode.matchWord

/-- The bits format A fixes (30_encoding.md R83). -/
theorem fits_a (c b : BitVec 8) : (c ++ b ++ 0#4 ++ (0 : CsrField)) &&& 0xFF00FFFF#32 = c ++ 0#24 := by
  apply BitVec.eq_of_getLsbD_eq
  intro i hi
  rw [BitVec.getLsbD_and]
  simp only [BitVec.getLsbD_append]
  interval_cases i <;> simp

/-- The bits format C fixes (30_encoding.md R84). -/
theorem fits_c (c : BitVec 8) (f : CsrField) : (c ++ (0 : BitVec 8) ++ 0#4 ++ f) &&& 0xFFFFF000#32 = c ++ 0#24 := by
  apply BitVec.eq_of_getLsbD_eq
  intro i hi
  rw [BitVec.getLsbD_and]
  simp only [BitVec.getLsbD_append]
  interval_cases i <;> simp

theorem nop : Statement .nop := fun _ => by decide

theorem init : Statement .init := fun _ => by decide

theorem start (n : Nat) : Statement (.start n) := fun _ => fits_a _ _

theorem stop : Statement .stop := fun _ => by decide

theorem isactive : Statement .isactive := fun _ => by decide

theorem actcfg (k : Nat) : Statement (.actcfg k) := fun _ => fits_a _ _

theorem avail : Statement .avail := fun _ => by decide

theorem space : Statement .space := fun _ => by decide

theorem get : Statement .get := fun _ => by decide

theorem flush : Statement .flush := fun _ => by decide

theorem csrr (a : Nat) : Statement (.csrr a) := fun _ => fits_c _ _

theorem csrw (a : Nat) (v : Word) : Statement (.csrw a v) := fun _ => fits_c _ _

end Sys2Proof.Laws.TableRow
end

