-- ==== Sys2Proof/Laws/Phase.lean ====
section
/-! SUPPORT. One update of a slot in terms of its phase (41_periodic_task.md R150) and its count (42_sampler.md R170). -/

namespace Sys2Proof.Machine

/-- How a remainder moves by one. -/
theorem mod_succ_cases (x p : Nat) (hp : 1 ≤ p) :
    ((x + 1) % p = 0 ∧ x % p + 1 = p) ∨ ((x + 1) % p = x % p + 1 ∧ x % p + 1 < p) := by
  have h1 := Nat.mod_lt x hp
  have h2 := Nat.add_mod x 1 p
  by_cases h : x % p + 1 = p
  · left; refine ⟨?_, h⟩
    have := Nat.div_add_mod x p
    have : x + 1 = p * (x / p + 1) := by rw [Nat.mul_add]; omega
    rw [this]; exact Nat.mul_mod_right _ _
  · right; refine ⟨?_, by omega⟩
    have := Nat.div_add_mod x p
    have : x + 1 = (x % p + 1) + p * (x / p) := by omega
    rw [this, Nat.add_mul_mod_self_left, Nat.mod_eq_of_lt (by omega)]

theorem clock_succ (c : Word) (h : c.toNat + 1 < 2 ^ 32) : (c + 1).toNat = c.toNat + 1 := by
  rw [BitVec.toNat_add]; simp; omega

/-- An update of an index outside the array does nothing; no reachable state makes one (log 10). -/
theorem State.actUpdate_of_length_le {s : State} (i : Nat) (now : Word) (hl : s.acts.length ≤ i) :
    s.actUpdate i now = s := by
  have ha := State.act_of_length_le hl
  have hset : ∀ a, s.setAct i a = s := by
    intro a; unfold State.setAct; rw [List.set_eq_of_length_le hl]
  have hcl : s.closeWindow i = s := by
    unfold State.closeWindow State.setIson State.offCallback; rw [hset, ha]; rfl
  have hop : s.openWindow i = s := by
    unfold State.openWindow State.setIson State.onCallback; rw [hset, ha]; rfl
  have ht : s.taskStep i now = s := by
    unfold State.taskStep; split
    · rfl
    · unfold State.transitions
      have e1 : ∀ e d, s.closeEnded i e d = s := by intro e d; unfold State.closeEnded; split <;> simp [hcl]
      have e2 : ∀ e, s.openNew i e = s := by intro e; unfold State.openNew; split <;> simp [hop]
      have e3 : ∀ e d, s.closeEmpty i e d = s := by intro e d; unfold State.closeEmpty; split <;> simp [hcl]
      rw [e1, e2, e3]
  unfold State.actUpdate State.sampleIfOn
  rw [ht, ha]; simp [Activity.reset]

/-- One update keeps a task in phase (41_periodic_task.md R150). -/
theorem Activity.ison_afterStep_of_inPhase {a : Activity} (hv : a.Valid) {c : Nat} {now : Word}
    (hn : now.toNat = c + 1) (h : a.InPhase c) :
    (a.afterStep now).ison = true ↔ a.offset.toNat ≤ c + 1 ∧ (c + 1 - a.offset.toNat) % a.period.toNat < a.duration.toNat ∧
      (1 ≤ a.offset.toNat ∨ a.period.toNat ≤ c + 1) := by
  obtain ⟨v1, v2, v3⟩ := hv
  unfold Activity.InPhase at h
  unfold Activity.afterStep Activity.elapsed
  rw [hn]
  generalize a.offset.toNat = o at *
  generalize a.period.toNat = p at *
  generalize a.duration.toNat = d at *
  by_cases h1 : c + 1 < o
  · rw [if_pos h1, h]; constructor <;> (rintro ⟨_, _⟩; omega)
  · rw [if_neg h1]
    by_cases h2 : (c + 1 - o) % p = 0
    · rw [if_pos h2, h2]
      simp only [decide_eq_true_eq]
      constructor
      · intro hd
        refine ⟨by omega, hd, ?_⟩
        by_cases ho : 1 ≤ o
        · left; exact ho
        · right
          have : o = 0 := by omega
          subst this
          exact Nat.le_of_dvd (by omega) (Nat.dvd_of_mod_eq_zero h2)
      · exact fun h => h.2.1
    · rw [if_neg h2]
      simp only [Bool.and_eq_true]
      rw [decide_eq_true_iff, h]
      have ho : o ≤ c := by
        rcases Nat.lt_or_ge c o with hlt | hge
        · exfalso; apply h2
          have : c + 1 - o = 0 := by omega
          rw [this, Nat.zero_mod]
        · exact hge
      have hs : c + 1 - o = (c - o) + 1 := by omega
      rw [hs] at h2 ⊢
      rcases mod_succ_cases (c - o) p v1 with ⟨a1, a2⟩ | ⟨a1, a2⟩
      · exact absurd a1 h2
      · rw [a1]
        constructor
        · rintro ⟨⟨b1, b2, b3⟩, b4⟩; exact ⟨by omega, b4, by omega⟩
        · rintro ⟨b1, b2, b3⟩
          refine ⟨⟨ho, by omega, ?_⟩, b2⟩
          rcases b3 with b3 | b3
          · exact .inl b3
          · by_cases h0 : o = 0
            · right
              subst h0
              by_contra hc
              have hcp : c + 1 = p := by omega
              have : (c - 0) % p = c := by rw [Nat.sub_zero]; exact Nat.mod_eq_of_lt (by omega)
              omega
            · left; omega

/-- One update keeps the count of a SAMPLER that is `ON` (42_sampler.md R170); the sample of the update is the `+ 1`. -/
theorem Activity.cnt_afterStep_of_inCount {a : Activity} (hv : a.Valid) (hs : a.smp = true) {c : Nat} {now : Word}
    (hn : now.toNat = c + 1) (h : a.InPhase c) (hc : a.InCount c) (ho : (a.afterStep now).ison = true) :
    ((a.afterStep now).cnt + 1).toNat = (c + 1 - a.offset.toNat) % a.period.toNat + 1 := by
  have hp := (Activity.ison_afterStep_of_inPhase hv hn h).mp ho
  obtain ⟨v1, v2, v3⟩ := hv
  unfold Activity.InPhase at h
  unfold Activity.InCount at hc
  have hpl := Nat.mod_lt (c + 1 - a.offset.toNat) v1
  revert ho
  unfold Activity.afterStep Activity.elapsed
  rw [hn]
  rw [if_neg (by omega)]
  by_cases h2 : (c + 1 - a.offset.toNat) % a.period.toNat = 0
  · rw [if_pos h2, h2]
    intro _
    unfold Activity.opened; rw [if_pos hs]; rfl
  · rw [if_neg h2]
    intro ho
    simp only [Bool.and_eq_true] at ho
    have hcn := hc ho.1
    have hh := h.mp ho.1
    have hsx : c + 1 - a.offset.toNat = (c - a.offset.toNat) + 1 := by omega
    rw [hsx] at h2 hp ⊢
    rcases mod_succ_cases (c - a.offset.toNat) a.period.toNat v1 with ⟨a1, a2⟩ | ⟨a1, a2⟩
    · exact absurd a1 h2
    · rw [a1]
      show (a.cnt + 1).toNat = _
      rw [BitVec.toNat_add, hcn]
      have := a.period.isLt
      have h1 : (1 : Word).toNat = 1 := rfl
      rw [h1, Nat.mod_eq_of_lt (by omega)]

end Sys2Proof.Machine
end

