-- ==== Sys2Proof/Tests/Slice0.lean ====
section
/-! SUPPORT. Tests of single operations and single steps, and witnesses that the statements' premises can be met.
Expected values come from spec/95_test_vectors.md (V, T, P numbers) and the examples in the rules named. -/

namespace Sys2Proof.Tests

open Sys2Proof Sys2Proof.Machine Sys2Proof.Claims

/-! ## Small states -/

/-- A configured TASK slot. -/
def taskSlot (off per dur : Word) : Activity :=
  { Activity.reset with offset := off, period := per, duration := dur, conf := true }

/-- A configured SAMPLER slot, `PPIN = 1`, `OPIN = 7`. -/
def samplerSlot (off per dur : Word) : Activity := { taskSlot off per dur with smp := true, ppin := 1, opin := 7 }

/-- A record `{pin, ts, count, sum}`. -/
def recordOf (pin ts count sum : Word) : SampleRecord := { pinWord := pin, timestamp := ts, count := count, sum := sum }

/-- The state after INIT, with given slots. -/
def inited (acts : List Activity) : State := { State.reset with tinit := true, acts := acts }

/-- A running state with given slots, all in the set. -/
def running (acts : List Activity) (clock : Word) : State :=
  { inited acts with run := true, actn := acts.length, clock := clock, cfg := { Params.vectors with nAct := acts.length } }

/-- A state with given indices and slots of the ring. -/
def ringAt (rd wr : Nat) (slots : Memory) : State := { State.reset with rdPos := rd, wrPos := wr, slots := slots }

/-- A state whose timer may fail and fails at the next draw. -/
def failing (s : State) : State :=
  { s with cfg := { s.cfg with timerCanFail := true }, env := { s.env with tfail := [true] } }

/-- A state with a history. -/
def withHistory (s : State) (h : List Happening) : State := { s with env := { s.env with history := h } }

/-- The state a step or a command answers, or the one it started from. -/
def next (s : State) (o : StepOutcome) : State :=
  match o with
  | .next t => t
  | .fault _ => s
  | .refused _ => s

/-- Whether an answer is a given next state. -/
def isNext (o : StepOutcome) (t : State) : Bool :=
  match o with
  | .next u => u == t
  | .fault _ => false
  | .refused _ => false

/-- What a command of the opcode table's word does to a state in one step. -/
def stepWord (w : Nat) (s : State) : State := next s (step (s.withFetchWord 32 w))

/-! ## Well-formed commands -/

theorem test_wellFormed_start_256 : (Instr.start 256).wellFormed = false := by decide
theorem test_wellFormed_actcfg_256 : (Instr.actcfg 256).wellFormed = false := by decide
theorem test_wellFormed_csrr_4096 : (Instr.csrr 4096).wellFormed = false := by decide
theorem test_wellFormed_csrw_4096 : (Instr.csrw 4096 0).wellFormed = false := by decide
theorem test_wellFormed_largest : (Instr.start 255).WellFormed ∧ (Instr.actcfg 255).WellFormed ∧
    (Instr.csrr 0xFFF).WellFormed ∧ (Instr.csrw 0xFFF 0xFFFFFFFF).WellFormed := by decide

/-! ## Decoding: words written out from the fields of 30_encoding.md R81, `OPC`, `ARG8`, `RSV`, `CSRA` -/

theorem test_decode_nop : decode 0b00000000_00000000_0000_000000000000#32 9 = .instr .nop := by decide
theorem test_decode_init : decode 0b00000001_00000000_0000_000000000000#32 0 = .instr .init := by decide
theorem test_decode_start : decode 0b00000010_11111111_0000_000000000000#32 0 = .instr (.start 255) := by decide
theorem test_decode_stop : decode 0b00000011_00000000_0000_000000000000#32 0 = .instr .stop := by decide
theorem test_decode_isactive : decode 0b00000100_00000000_0000_000000000000#32 0 = .instr .isactive := by decide
theorem test_decode_actcfg : decode 0b00001000_00000011_0000_000000000000#32 0 = .instr (.actcfg 3) := by decide
theorem test_decode_avail : decode 0b00010000_00000000_0000_000000000000#32 0 = .instr .avail := by decide
theorem test_decode_space : decode 0b00010001_00000000_0000_000000000000#32 0 = .instr .space := by decide
theorem test_decode_get : decode 0b00010010_00000000_0000_000000000000#32 0 = .instr .get := by decide
theorem test_decode_flush : decode 0b00010011_00000000_0000_000000000000#32 0 = .instr .flush := by decide
theorem test_decode_csrr : decode 0b00100000_00000000_0000_111111111111#32 0 = .instr (.csrr 0xFFF) := by decide
theorem test_decode_csrw : decode 0b00100001_00000000_0000_000000010011#32 0xFFFFFFFF =
    .instr (.csrw 0x013 0xFFFFFFFF) := by decide

/-- The refusals of 95_test_vectors.md's table of encodings, `ILLEGAL_OPCODE` before `RESERVED_FIELD` (R244). -/
theorem test_decode_rejects :
    decode 0x00000001 0 = .reject .reservedField ∧ decode 0x02001000 0 = .reject .reservedField ∧
    decode 0x08001000 0 = .reject .reservedField ∧ decode 0x20010000 0 = .reject .reservedField ∧
    decode 0x05000000 0 = .reject .illegalOpcode ∧ decode 0x22000000 0 = .reject .illegalOpcode ∧
    decode 0xFF000000 0 = .reject .illegalOpcode ∧ decode 0x05000001 0 = .reject .illegalOpcode := by decide

/-- The encodings of 30_encoding.md R91 and R94. -/
theorem test_encode : encode (.start 3) = 0x02030000#32 ∧ encode (.actcfg 1) = 0x08010000#32 ∧
    encode (.csrw 0x011 1000) = 0x21000011#32 ∧ encode (.csrr 0x116) = 0x20000116#32 ∧
    encode .get = 0x12000000#32 := by decide

/-- 43_dispatcher.md R189: `FLAGS(1,1,3,5) = 0x00050303`; 30_encoding.md R93: `CLRERR`. -/
theorem test_asm : Asm.flags true true 3 5 = 0x00050303#32 ∧ Asm.clrErr = [.csrw 0x000 0x78] ∧
    (Asm.cfg 0 1 2 1 0x00070102).length = 5 := by decide

theorem test_decodeTableWord : decodeTableWord 32 0x08030000 = some (.actcfg 3) ∧
    decodeTableWord 32 0x21000010 = some (.csrw 0x010 0) ∧ decodeTableWord 32 0x12000001 = none := by decide

/-! ## Ring buffer: T1 to T6, V2 -/

theorem test_counts : (ringAt 0 3 []).available = 3 ∧ (ringAt 0 3 []).space = 0 ∧ (ringAt 3 0 []).available = 1 ∧
    (ringAt 2 1 []).available = 3 ∧ (ringAt 3 3 []).available = 0 ∧ (ringAt 3 3 []).space = 3 := by decide

/-- 40_ringbuffer.md R118 and R119's example, `CAPACITY = 8`. -/
theorem test_avail_space :
    isNext (exec .avail { ringAt 6 2 [] with cfg := { Params.vectors with capacity := 8 } })
      { ringAt 6 2 [] with cfg := { Params.vectors with capacity := 8 }, resp := answers 4 0 0 0 } ∧
    isNext (exec .space { ringAt 6 2 [] with cfg := { Params.vectors with capacity := 8 } })
      { ringAt 6 2 [] with cfg := { Params.vectors with capacity := 8 }, resp := answers 3 0 0 0 } := by decide

/-- V2: the put on a full buffer and the one after it. -/
theorem test_put_full :
    (((ringAt 0 3 [(0, recordOf 1 1 1 1)]).rbPut (recordOf 4 4 4 4)).rbPut (recordOf 5 5 5 5)) =
      { ringAt 0 1 [(0, recordOf 5 5 5 5), (3, recordOf 4 4 4 4)] with ovf := true } := by decide

/-- T3. -/
theorem test_get_empty : isNext (exec .get (ringAt 2 2 [(2, recordOf 7 1005 1 9)]))
      { ringAt 3 2 [(2, recordOf 7 1005 1 9)] with unf := true, resp := answers 7 1005 1 9 } := by decide

/-- 40_ringbuffer.md R120's example. -/
theorem test_get : isNext (exec .get (ringAt 0 1 [(0, recordOf 5 1000100 200 1400)]))
      { ringAt 1 1 [(0, recordOf 5 1000100 200 1400)] with resp := answers 5 0x000F42A4 200 1400 } := by decide

/-- T5. -/
theorem test_flush : isNext (exec .flush (ringAt 3 1 [])) { ringAt 1 1 [] with resp := answers 0 0 0 0 } := by decide

/-- The slot store stays in canonical form, and a write to an index replaces its record. -/
theorem test_slots : Memory.write 1 (recordOf 9 0 0 0) [(0, recordOf 1 0 0 0), (1, recordOf 2 0 0 0), (3, recordOf 3 0 0 0)] =
    [(0, recordOf 1 0 0 0), (1, recordOf 9 0 0 0), (3, recordOf 3 0 0 0)] := by decide

/-! ## Periodic task and sampler: V1, T7 to T18 -/

/-- V1: on at 100, off at 300. -/
theorem test_step_on : (((inited [taskSlot 100 1000 200]).taskStep 0 99).act 0).ison = false ∧
    (((inited [taskSlot 100 1000 200]).taskStep 0 1100).act 0).ison = true ∧
    (((inited [{ taskSlot 100 1000 200 with ison := true }]).taskStep 0 299).act 0).ison = true ∧
    (((inited [{ taskSlot 100 1000 200 with ison := true }]).taskStep 0 300).act 0).ison = false := by decide

/-- T7: at tick 5 with `D = P` the window closes and a new one opens. -/
theorem test_step_full_period :
    (inited [{ samplerSlot 1 4 4 with ison := true, ts := 1001, cnt := 4, sum := 4 }]).taskStep 0 5 =
      { inited [{ samplerSlot 1 4 4 with ison := true }] with wrPos := 1, slots := [(0, recordOf 7 1001 4 4)] } := by decide

/-- T8: an empty window. -/
theorem test_step_empty_window : (inited [samplerSlot 2 3 0]).actUpdate 0 5 =
    { inited [samplerSlot 2 3 0] with wrPos := 1, slots := [(0, recordOf 7 0 0 0)] } := by decide

/-- T16: the sample of tick 2; T17: a timestamp of 0 does not stick. -/
theorem test_sample :
    (({ inited [{ samplerSlot 1 5 3 with ison := true, ts := 1001, cnt := 1, sum := 10 }] with
        env := { Env.initial with adc := [20] } } : State).actUpdate 0 2).act 0 =
      { samplerSlot 1 5 3 with ison := true, ts := 1001, cnt := 2, sum := 30 } ∧
    (({ inited [{ samplerSlot 1 5 3 with ison := true, cnt := 2, sum := 2 }] with
        env := { Env.initial with adc := [1], absTime := [77] } } : State).actUpdate 0 3).act 0 =
      { samplerSlot 1 5 3 with ison := true, ts := 77, cnt := 3, sum := 3 } := by decide

/-- T18: the sum wraps, with no flag; and a reading is cut to `ADC_WIDTH` bits. -/
theorem test_sample_wraps :
    ((({ inited [{ samplerSlot 1 5 3 with ts := 1, sum := 0xFFFFFFF0 }] with
        cfg := { Params.vectors with adcWidth := 32 }, env := { Env.initial with adc := [0x20] } } : State).sample 0).act 0).sum
      = 0x10 ∧
    ((({ inited [{ samplerSlot 1 5 3 with ts := 1 }] with env := { Env.initial with adc := [0x1FFF] } } : State).sample
        0).act 0).sum = 0xFFF := by decide

/-! ## The tick -/

/-- 42_sampler.md R165: the secondary in slot 0 runs after the primary in slot 1, so its record comes second. -/
theorem test_tick_order :
    (running [{ samplerSlot 1 3 0 with sec := true, opin := 8 }, samplerSlot 1 3 0] 0).tick.slots =
      [(0, recordOf 7 0 0 0), (1, recordOf 8 0 0 0)] := by decide

/-- V5: the draw of the secondary in slot 1 sees the primary of slot 0 already `ON`. -/
theorem test_draw_sees_primaries :
    (((running [taskSlot 1 2 1, { samplerSlot 1 2 1 with sec := true }] 0).advanceClock.pass 2 false 1).tickCtx 1).out
      = 1 := by decide

/-- 42_sampler.md R166: the context of a draw holds the history, and so the answers given before it in the same tick. -/
theorem test_draw_sees_history :
    (({ inited [samplerSlot 1 5 3] with env := { Env.initial with adc := [9], absTime := [77] } } : State).sample 0).drawCtx.history
      = [.reading 1 9, .absTime 77] := by decide

/-- T33: with an empty set a tick advances the clock and changes nothing else; 43_dispatcher.md R184: the wrap. -/
theorem test_tick_empty_set : (running [] 0).tick = { running [] 0 with clock := 1 } ∧
    (running [] 0xFFFFFFFF).tick = running [] 0 := by decide

/-! ## Timer control: T21 to T35 -/

/-- T21. -/
theorem test_init : (stepWord 0x01000000 State.reset).tinit = true ∧
    isNext (exec .init (inited [])) { inited [] with resp := answers 0 0 0 0 } := by decide

/-- T31: `STATUS = 0x44`. -/
theorem test_init_fails : (stepWord 0x01000000 (failing State.reset)).statusWord = 0x44 ∧
    (stepWord 0x01000000 (failing State.reset)).errCause = 0x0F := by decide

/-- 43_dispatcher.md R186's example. -/
theorem test_start :
    isNext (exec (.start 2) { inited [taskSlot 1 2 1, taskSlot 1 2 1] with clock := 731, cfg := { Params.vectors with nAct := 2 } })
      { running [taskSlot 1 2 1, taskSlot 1 2 1] 0 with
      env := { Env.initial with history := [.tfail false] }, resp := answers 0 0 0 0 } := by decide

/-- T32: a failed START keeps what it did; `STATUS = 0x46`. -/
theorem test_start_fails :
    (stepWord 0x02010000 (failing (running [{ taskSlot 1 2 1 with ison := true }] 57))).statusWord = 0x46 ∧
    (stepWord 0x02010000 (failing (running [{ taskSlot 1 2 1 with ison := true }] 57))).acts = [taskSlot 1 2 1] ∧
    (stepWord 0x02010000 (failing (running [{ taskSlot 1 2 1 with ison := true }] 57))).clock = 0 := by decide

/-- T22, T23, T24. -/
theorem test_start_refused : isNext (exec (.start 5) State.reset) (refusedWith State.reset 0x05 false) ∧
    isNext (exec (.start 5) (inited State.reset.acts)) (refusedWith (inited State.reset.acts) 0x06 false) ∧
    isNext (exec (.start 1) (inited State.reset.acts)) (refusedWith (inited State.reset.acts) 0x07 false) := by decide

/-- 43_dispatcher.md R187's example, and T19: the accumulators stay and no record is put. -/
theorem test_stop :
    isNext (exec .stop (running [taskSlot 1 2 1, { samplerSlot 1 9 8 with ison := true, cnt := 5 }] 150))
      { running [taskSlot 1 2 1, { samplerSlot 1 9 8 with cnt := 5 }] 150 with
      run := false, actn := 0, resp := answers 0 0 0 0 } := by decide

theorem test_isactive : isNext (exec .isactive (running [] 0))
      { running [] 0 with resp := answers 1 0 0 0 } := by decide

/-- 43_dispatcher.md R189's example. -/
theorem test_actcfg :
    (stepWord 0x08000000 { State.reset with cfgOffset := 100, cfgPeriod := 1000, cfgDuration := 200, cfgFlags := 0x00050303 }).act 0 =
      { offset := 100, period := 1000, duration := 200, sec := true, smp := true, ppin := 3, opin := 5,
        conf := true, ison := false, ts := 0, cnt := 0, sum := 0 } := by decide

/-- T25, T27, T28, T30: the order of ACTCFG's checks. -/
theorem test_actcfg_refused :
    (stepWord 0x08040000 { State.reset with run := true }).errCause = 0x08 ∧
    (stepWord 0x08000000 { State.reset with run := true }).errCause = 0x09 ∧
    (stepWord 0x08000000 State.reset).errCause = 0x0A ∧
    (stepWord 0x08000000 { State.reset with cfgPeriod := 1, cfgDuration := 2 }).errCause = 0x0B ∧
    (stepWord 0x08000000 { State.reset with cfgPeriod := 0xFFFFFFFF, cfgDuration := 0x80000000 }).errCause = 0x0C ∧
    (stepWord 0x08000000 { State.reset with cfgFlags := 0x80 }).errCause = 0x0D := by decide

/-! ## CSR access: T36 to T40 -/

/-- T36. -/
theorem test_status_w1c : ({ State.reset with tinit := true, ovf := true, unf := true, cfgErr := true, cmdErr := true } : State).statusWord = 0x7A ∧
    (({ State.reset with tinit := true, ovf := true, unf := true, cfgErr := true, cmdErr := true } : State).writeStatus 0x0D).statusWord = 0x72 ∧
    (({ State.reset with tinit := true, ovf := true, unf := true, cfgErr := true, cmdErr := true } : State).writeStatus 0xFFFFFFFF).statusWord = 0x02 := by
  decide

/-- T37 and 44_csr.md R222's example. -/
theorem test_csrw : isNext (exec (.csrw 0x002 5) State.reset) (refusedWith State.reset 0x04 false) ∧
    isNext (exec (.csrw 0x010 100) State.reset)
      { State.reset with cfgOffset := 100, resp := answers 0 0 0 0 } := by decide

/-- T38. -/
theorem test_csrr_unmapped : csrAt 4 0x120 = none ∧ csrAt 4 0x009 = none ∧ csrAt 4 0x014 = none ∧
    csrAt 4 0x200 = none ∧ csrAt 4 0x11F = some (.act 3 .sum) := by decide

/-- T39. -/
theorem test_csrr_slot :
    isNext (exec (.csrr 0x103) (inited [{ taskSlot 100 1000 200 with sec := true, smp := true, ppin := 3, opin := 5 }]))
      { inited [{ taskSlot 100 1000 200 with sec := true, smp := true, ppin := 3, opin := 5 }] with
        resp := answers 0x00050303 0 0 0 } ∧
    (taskSlot 100 1000 200).stateWord false = 2 ∧ (taskSlot 100 1000 200).stateWord true = 6 := by decide

theorem test_out : (running [taskSlot 1 2 1, { taskSlot 1 2 1 with ison := true }] 0).out = 2 := by decide

theorem test_nop_first_step : isNext (step (State.reset.withFetchWord 32 0))
      { withHistory State.reset [.event (.command 0 0)] with resp := answers 0 0 0 0 } := by decide

/-! ## Events -/

theorem test_reset_event :
    isNext (step { running [{ taskSlot 1 2 1 with ison := true }] 7 with agenda := [.reset] })
      (withHistory (State.afterReset { Params.vectors with nAct := 1 } [] Env.initial) [.event .reset]) := by decide

theorem test_complete : step State.reset = .fault .runComplete := rfl

/-! ## Witnesses: each statement's premises together, each clause at a boundary of its range -/

/-- A state with any agenda put first. -/
def planned (s : State) (agenda : List Event) : State := { s with agenda := agenda }

/-- The form of a state from its parts, for a state over the parameters of the test vectors. -/
theorem shape_of {s : State} (h1 : s.cfg.Ok) (h2 : s.acts.length = s.cfg.nAct) (h3 : s.actn ≤ s.cfg.nAct)
    (h4 : s.rdPos < s.cfg.capacity) (h5 : s.wrPos < s.cfg.capacity) (h6 : Memory.wf s.slots)
    (h7 : ∀ x ∈ s.slots, x.1 < s.cfg.capacity) : s.Shape := ⟨h1, h2, h3, h4, h5, h6, h7⟩

/-- A run in the middle: slot 0 a TASK that is `ON`, slot 1 a secondary SAMPLER that is `ON` with two samples, one
record unread in the last slot of the ring, answers listed for the next draws. -/
def busy : State :=
  { running [{ taskSlot 2 4 4 with ison := true },
      { samplerSlot 1 4 2 with sec := true, ison := true, ts := 1001, cnt := 2, sum := 14 }] 2 with
    rdPos := 3, wrPos := 0, slots := [(3, recordOf 7 1001 1 9)],
    env := { Env.initial with adc := [7, 7], absTime := [1003] } }

theorem busy_shape : busy.Shape := shape_of (by decide) (by decide) (by decide) (by decide) (by decide) (by decide) (by decide)

theorem busy_act (i : Nat) (h : 2 ≤ i) : busy.act i = Activity.reset := State.act_of_length_le h

theorem busy_dispatching : busy.Dispatching := by
  refine ⟨by decide, by decide, fun _ => by decide, fun i h => ?_⟩
  rw [busy_act i h]; rfl

theorem busy_configured : busy.Configured := by
  intro i h
  match i with
  | 0 => exact ⟨by decide, by decide, by decide⟩
  | 1 => exact ⟨by decide, by decide, by decide⟩
  | n + 2 => rw [busy_act (n + 2) (by omega)] at h; cases h

theorem busy_taskIdle : busy.TaskIdle := by
  intro i h
  match i with
  | 0 => decide
  | 1 => cases h
  | n + 2 => rw [busy_act (n + 2) (by omega)]; decide

theorem busy_reporting : busy.Reporting := ⟨by decide, by decide, by decide, by decide⟩

theorem busy_pinWords : busy.PinWords := by unfold State.PinWords; decide

/-- The premises of the invariants' statements: a state in the middle of a run, and a step that answers. -/
theorem witness_Inv : busy.Inv ∧ (next busy (step busy)).clock = 3 ∧ isNext (step busy) (busy.takeTick []) :=
  ⟨⟨busy_shape, busy_dispatching, busy_configured, busy_taskIdle, busy_reporting, busy_pinWords⟩, by decide, by decide⟩

theorem witness_StepRunsDecodedCommand :
    (State.reset.withFetchWord 32 0x02FF0000).agenda = .command 0x02FF0000 0 :: [] ∧
    decode 0x02FF0000 0 = .instr (.start 255) := by decide

/-- Each kind of word at the ends of its range. -/
theorem witness_StepRefusesUndecodableWords :
    isNext (step (State.reset.withFetchWord 32 0x05000000)) (refusedWith (taken State.reset (.command 0x05000000 0) []) 0x01 false) ∧
    isNext (step (State.reset.withFetchWord 32 0xFFFFFFFF)) (refusedWith (taken State.reset (.command 0xFFFFFFFF 0) []) 0x01 false) ∧
    isNext (step (State.reset.withFetchWord 32 0x00000001)) (refusedWith (taken State.reset (.command 0x00000001 0) []) 0x02 false) ∧
    isNext (step (State.reset.withFetchWord 32 0x13FFFFFF)) (refusedWith (taken State.reset (.command 0x13FFFFFF 0) []) 0x02 false) ∧
    isNext (step (State.reset.withFetchWord 32 0x0200FFFF)) (refusedWith (taken State.reset (.command 0x0200FFFF 0) []) 0x02 false) ∧
    isNext (step (State.reset.withFetchWord 32 0x08000001)) (refusedWith (taken State.reset (.command 0x08000001 0) []) 0x02 false) ∧
    isNext (step (State.reset.withFetchWord 32 0x20001000)) (refusedWith (taken State.reset (.command 0x20001000 0) []) 0x02 false) ∧
    isNext (step (State.reset.withFetchWord 32 0x21FFF000)) (refusedWith (taken State.reset (.command 0x21FFF000 0) []) 0x02 false) := by decide

theorem witness_AssemblerFormsDecode : decode 0x02FF0000 1 = .instr (.start 255) ∧ decode 0x02000000 1 = .instr (.start 0) ∧
    decode 0x08FF0000 1 = .instr (.actcfg 255) ∧ decode 0x20000FFF 1 = .instr (.csrr 0xFFF) ∧
    decode 0x21000FFF 1 = .instr (.csrw 0xFFF 1) := by decide

theorem witness_DecodeOfEncode : (Instr.csrw 0xFFF 0xFFFFFFFF).WellFormed ∧
    decode (encode (.csrw 0xFFF 0xFFFFFFFF)) (Instr.wdata (.csrw 0xFFF 0xFFFFFFFF)) = .instr (.csrw 0xFFF 0xFFFFFFFF) := by decide

theorem witness_EncodeOfDecode : decode 0x21000FFF 5 = .instr (.csrw 0xFFF 5) := by decide

/-- The four cases: a tick taken, a tick dropped, the TICK agent alone, the end of a run. -/
theorem witness_TicksAndEndOfRun :
    isNext (step (planned (running [] 0) [.tick])) (withHistory (running [] 1) [.event .tick]) ∧
    isNext (step (planned State.reset [.tick])) State.reset ∧
    isNext (step (running [] 0)) (withHistory (running [] 1) [.event .tick]) ∧
    State.reset.agenda = [] ∧ State.reset.run = false := by decide

theorem witness_ResetEventSetsEveryField : (planned busy [.reset]).agenda = .reset :: [] ∧ 1 < busy.cfg.nAct := by decide

/-- The least and the greatest parameters. -/
theorem witness_ResetMeetsInvariants :
    Params.Ok { capacity := 2, nAct := 1, adcWidth := 1, timerCanFail := false } ∧
    Params.Ok { capacity := 65536, nAct := 32, adcWidth := 32, timerCanFail := true } := by decide

/-- The first and the last activity slot. -/
theorem witness_CsrrReads : busy.Shape ∧ 0 < busy.cfg.nAct ∧ 1 < busy.cfg.nAct ∧
    isNext (exec (.csrr 0x107) busy) { busy with resp := answers 0 0 0 0 } ∧
    isNext (exec (.csrr 0x10F) busy) { busy with resp := answers 14 0 0 0 } ∧
    isNext (exec (.csrr 0x008) busy) { busy with resp := answers 3 0 0 0 } :=
  ⟨busy_shape, by decide, by decide, by decide, by decide, by decide⟩

/-- Addresses on either side of each mapped range. -/
theorem witness_Mapped :
    (∀ a, a ∈ [0x009, 0x00F, 0x014, 0x0FF, 0x120, 0xFFF] → ¬ Mapped State.reset.cfg.nAct a) ∧
    (∀ a, a ∈ [0x001, 0x008, 0x100, 0x11F] →
      Mapped State.reset.cfg.nAct a ∧ a ≠ 0x000 ∧ ¬ (0x010 ≤ a ∧ a ≤ 0x013)) := by
  unfold Mapped; decide

/-- Premises of the statements on the ring: indices in range, on either side of the wrap. -/
theorem witness_RingIndices : busy.cfg.capacity ≤ 65536 ∧ busy.rdPos < busy.cfg.capacity ∧ busy.wrPos < busy.cfg.capacity ∧
    busy.rdPos ≠ busy.wrPos ∧ (ringAt 3 3 []).rdPos < (ringAt 3 3 []).cfg.capacity ∧
    (ringAt 3 3 []).rdPos = (ringAt 3 3 []).wrPos := by decide

theorem witness_GetAnswersOldestRecord : busy.rdPos ≠ busy.wrPos ∧ busy.slots.read busy.rdPos = some (recordOf 7 1001 1 9) := by decide

theorem witness_GetOnEmptyBufferReadsAsFull :
    (ringAt 2 2 [(2, recordOf 7 1005 1 9)]).wrPos = (ringAt 2 2 [(2, recordOf 7 1005 1 9)]).rdPos ∧
    (ringAt 2 2 [(2, recordOf 7 1005 1 9)]).slots.read 2 = some (recordOf 7 1005 1 9) ∧
    State.reset.wrPos = State.reset.rdPos ∧ State.reset.slots.read State.reset.wrPos = none := by decide

theorem witness_GetOfUnwrittenSlotAnswersDraw : State.reset.rdPos < State.reset.cfg.capacity ∧
    State.reset.slots.read State.reset.rdPos = none ∧
    ({ State.reset with env := { Env.initial with emptySlot := [5] } } : State).env.emptySlot = 5 :: [] := by decide

/-- INIT's four cases. -/
theorem witness_InitCases : ({ State.reset with fatal := true } : State).fatal = true ∧
    ((inited []).fatal = false ∧ (inited []).tinit = true) ∧
    (State.reset.fatal = false ∧ State.reset.tinit = false ∧ State.reset.tfailAnswer = false) ∧
    ((failing State.reset).fatal = false ∧ (failing State.reset).tinit = false ∧
      (failing State.reset).tfailAnswer = true) := by decide

/-- START of all slots, of none, and one whose timer fails. -/
theorem witness_Start : busy.fatal = false ∧ busy.tinit = true ∧ 2 ≤ busy.cfg.nAct ∧ busy.acts.length = busy.cfg.nAct ∧
    (∀ i, i < 2 → (busy.act i).conf = true) ∧ (∀ i, i < 0 → (busy.act i).conf = true) ∧
    (busy.beginRun 2).tfailAnswer = false ∧ ((failing busy).beginRun 2).tfailAnswer = true := by decide

/-- START's four refusals. -/
theorem witness_StartRefusals : ({ busy with fatal := true } : State).fatal = true ∧
    (State.reset.fatal = false ∧ State.reset.tinit = false) ∧ busy.cfg.nAct < 3 ∧ busy.cfg.nAct < 255 ∧
    ((inited State.reset.acts).tinit = true ∧ 1 ≤ (inited State.reset.acts).cfg.nAct ∧
      ((inited State.reset.acts).act 0).conf = false) := by decide

theorem witness_StopThenStart : busy.Dispatching ∧ busy.fatal = false ∧ busy.tinit = true ∧ 2 ≤ busy.cfg.nAct ∧
    busy.acts.length = busy.cfg.nAct ∧ (∀ i, i < 2 → (busy.act i).conf = true) ∧
    (busy.stopSequence.beginRun 2).tfailAnswer = false :=
  ⟨busy_dispatching, by decide, by decide, by decide, by decide, by decide, by decide⟩

/-- The largest values ACTCFG accepts, in the last slot. -/
def staged : State :=
  { State.reset with cfgPeriod := 0x7FFFFFFF, cfgDuration := 0x7FFFFFFF, cfgFlags := 0x00FFFF03 }

theorem witness_ActcfgResult : staged.acts.length = staged.cfg.nAct ∧ 3 < staged.cfg.nAct ∧ staged.run = false ∧
    staged.cfgFlags.extractLsb' 2 6 = 0 ∧ staged.cfgFlags.extractLsb' 24 8 = 0 ∧ 1 ≤ staged.cfgPeriod.toNat ∧
    staged.cfgDuration.toNat ≤ staged.cfgPeriod.toNat ∧ staged.cfgDuration.toNat ≤ 0x7FFFFFFF := by decide

/-- Each of ACTCFG's refusals, at the first value that meets it. -/
theorem witness_ActcfgRefusals : State.reset.cfg.nAct ≤ 4 ∧ 1 < busy.cfg.nAct ∧ busy.run = true ∧
    ({ staged with cfgFlags := 0x00000004 } : State).cfgFlags.extractLsb' 2 6 ≠ 0 ∧
    ({ staged with cfgFlags := 0x01000000 } : State).cfgFlags.extractLsb' 24 8 ≠ 0 ∧
    ({ staged with cfgPeriod := 0 } : State).cfgPeriod = 0 ∧
    ({ staged with cfgPeriod := 1, cfgDuration := 2 } : State).cfgPeriod.toNat < 2 ∧
    0x7FFFFFFF < ({ staged with cfgPeriod := 0x80000000, cfgDuration := 0x80000000 } : State).cfgDuration.toNat := by decide

theorem witness_AcceptedFlagsReadBack : staged.acts.length = staged.cfg.nAct ∧
    (next staged (exec (.actcfg 3) staged)).resp = answers 0 0 0 0 ∧
    isNext (exec (.actcfg 3) staged) (next staged (exec (.actcfg 3) staged)) := by decide

theorem witness_PutOnFullBufferLosesUnread : 2 ≤ (ringAt 0 3 []).cfg.capacity ∧
    ((ringAt 0 3 []).wrPos + 1) % (ringAt 0 3 []).cfg.capacity = (ringAt 0 3 []).rdPos := by decide

/-- T6: within capacity, over the wrap of the indices. -/
theorem witness_PutsAndGetsAreFifo :
    (State.reset.ringRun [.put (recordOf 1 1 1 1), .put (recordOf 2 2 2 2), .put (recordOf 3 3 3 3), .get, .get,
      .put (recordOf 4 4 4 4), .get, .get]).2 =
        [recordOf 1 1 1 1, recordOf 2 2 2 2, recordOf 3 3 3 3, recordOf 4 4 4 4] ∧
    (State.reset.ringRun [.put (recordOf 1 1 1 1), .put (recordOf 2 2 2 2), .put (recordOf 3 3 3 3), .get, .get,
      .put (recordOf 4 4 4 4), .get, .get]).1 =
        ringAt 0 0 [(0, recordOf 1 1 1 1), (1, recordOf 2 2 2 2), (2, recordOf 3 3 3 3), (3, recordOf 4 4 4 4)] := by decide

/-- One step of each kind: GET, FLUSH, another command, reset, a tick that puts with slots to spare, one that fills the
last free slot with `OVF` already set, and a tick that is not enabled. -/
theorem witness_StepsKeepQueueDiscipline : busy.Shape ∧ 0 < busy.available ∧
    (stepWord 0x12000000 busy).unread = [] ∧ (stepWord 0x13000000 busy).unread = [] ∧
    (stepWord 0x03000000 busy).unread = busy.unread ∧ (next busy (step (planned busy [.reset]))).unread = [] ∧
    busy.run = true ∧ busy.tickPuts ≤ busy.space ∧ busy.tickPuts = 1 ∧
    busy.tick.unread = [some (recordOf 7 1001 1 9), some (recordOf 7 1001 2 14)] ∧
    ({ busy with ovf := true, rdPos := 2 } : State).space = 1 ∧
    (next { busy with ovf := true, rdPos := 2 } (step { busy with ovf := true, rdPos := 2 })).unread =
      [none, some (recordOf 7 1001 1 9), some (recordOf 7 1001 2 14)] ∧
    (next busy (step (planned { busy with run := false } [.tick]))).unread = busy.unread :=
  ⟨busy_shape, by decide, by decide, by decide, by decide, by decide, by decide, by decide, by decide, by decide, by decide, by decide⟩

/-- The three cases of `TaskStep`, where they meet. -/
theorem witness_TaskStep : 0 < busy.acts.length ∧ (1 : Word).toNat < (busy.act 0).offset.toNat ∧
    (busy.act 0).offset.toNat ≤ (2 : Word).toNat ∧
    ((2 : Word).toNat - (busy.act 0).offset.toNat) % (busy.act 0).period.toNat = 0 ∧
    ((5 : Word).toNat - (busy.act 0).offset.toNat) % (busy.act 0).period.toNat ≠ 0 := by decide

/-- Each case of the callback sequences, at the update where it begins: before the offset, `OFF` and `ON` within a
period, the end of a window, and the start of a period, with a window and with an empty one. -/
theorem witness_TaskStepCallbackSequences : 0 < busy.acts.length ∧
    (0 : Word).toNat < (taskSlot 1 4 2).offset.toNat ∧ (taskSlot 1 4 2).elapsed 2 = 1 ∧
    (taskSlot 1 4 2).elapsed 3 = (taskSlot 1 4 2).duration.toNat ∧ (taskSlot 1 4 2).elapsed 5 = 0 ∧
    (inited [taskSlot 1 4 2]).taskStep 0 0 = inited [taskSlot 1 4 2] ∧
    (inited [taskSlot 1 4 2]).taskStep 0 3 = inited [taskSlot 1 4 2] ∧
    (inited [{ taskSlot 1 4 2 with ison := true }]).taskStep 0 2 = inited [{ taskSlot 1 4 2 with ison := true }] ∧
    (inited [{ taskSlot 1 4 2 with ison := true }]).taskStep 0 3 = inited [taskSlot 1 4 2] ∧
    (inited [taskSlot 1 4 2]).taskStep 0 5 = inited [{ taskSlot 1 4 2 with ison := true }] ∧
    ((inited [{ samplerSlot 1 4 4 with ison := true }]).taskStep 0 5).wrPos = 1 ∧
    ((inited [samplerSlot 1 4 0]).taskStep 0 5).wrPos = 1 ∧
    ((inited [{ samplerSlot 1 4 0 with ison := true }]).taskStep 0 5).wrPos = 2 := by decide

/-- A SAMPLER's update: the one that opens its window samples, the one that closes it does not; and a TASK's. -/
theorem witness_UpdateSwitchesThenSamples :
    ((inited [samplerSlot 1 4 2]).act 0).smp = true ∧ (((inited [samplerSlot 1 4 2]).taskStep 0 1).act 0).ison = true ∧
    (((inited [samplerSlot 1 4 2]).actUpdate 0 1).act 0).cnt = 1 ∧
    (((inited [{ samplerSlot 1 4 2 with ison := true, cnt := 2 }]).taskStep 0 3).act 0).ison = false ∧
    (((inited [{ samplerSlot 1 4 2 with ison := true, cnt := 2 }]).actUpdate 0 3).act 0).cnt = 2 ∧
    (busy.act 0).smp = false ∧ 0 < busy.acts.length := by decide

/-- Both kinds of slot, within the array. -/
theorem witness_Windows : 1 < busy.acts.length ∧ (busy.act 0).smp = false ∧ (busy.act 1).smp = true := by decide

/-- Both cases of the timestamp, with answers listed. -/
theorem witness_SampleAccumulates : (busy.act 1).ts ≠ 0 ∧ (busy.act 0).ts = 0 ∧ busy.env.absTime = 1003 :: [] ∧
    busy.env.adc = 7 :: [7] := by decide

/-- An accepted START; the first and the last tick before the wrap are in range. -/
theorem witness_OnExactlyInsideWindows : busy.Shape ∧ busy.Configured ∧
    isNext (exec (.start 2) busy) (next busy (exec (.start 2) busy)) ∧
    (next busy (exec (.start 2) busy)).resp = answers 0 0 0 0 ∧ 0 < 2 ^ 32 ∧ 0xFFFFFFFF < 2 ^ 32 :=
  ⟨busy_shape, busy_configured, by decide, by decide, by decide, by decide⟩

/-- A SAMPLER in phase with its count right, at the last tick of its window. -/
theorem witness_WindowsFollowPeriods : busy.acts.length = busy.cfg.nAct ∧ busy.actn ≤ busy.acts.length ∧ 1 < busy.actn ∧
    (busy.act 1).Valid ∧ (busy.act 1).smp = true ∧ busy.clock.toNat + 1 < 2 ^ 32 ∧
    (busy.act 1).InPhase busy.clock.toNat ∧ (busy.act 1).InCount busy.clock.toNat :=
  ⟨by decide, by decide, by decide, ⟨by decide, by decide, by decide⟩, by decide, by decide,
    by unfold Activity.InPhase; decide, by unfold Activity.InCount; decide⟩

/-- Its window closes at the next update, whether the window has ended or a new period begins. -/
theorem witness_WindowRecordsCountDuration : (3 : Word).toNat = busy.clock.toNat + 1 ∧ (busy.act 1).ison = true ∧
    (busy.act 1).duration.toNat ≤ (busy.act 1).elapsed 3 ∧
    ({ samplerSlot 1 4 4 with ison := true, cnt := 4 } : Activity).elapsed 5 = 0 := by decide

theorem witness_ClockWrapHoldsWindows : ({ busy with clock := 0xFFFFFFFF } : State).clock = 0xFFFFFFFF ∧
    0 < busy.actn ∧ 1 ≤ (busy.act 0).offset.toNat ∧ (busy.act 0).ison = true ∧ 1 ≤ (busy.act 0).duration.toNat := by decide

/-- The frame's premises: a tick that puts one record, one that puts two on a ring with one free slot, and a set without
a SAMPLER. -/
theorem witness_TickFrame : busy.actn ≤ busy.acts.length ∧ 2 ≤ busy.acts.length ∧ busy.wrPos < busy.cfg.capacity ∧
    busy.rdPos < busy.cfg.capacity ∧ busy.tickPuts = 1 ∧ busy.tick.wrPos = 1 ∧
    ({ running [{ samplerSlot 1 4 0 with ison := true }] 4 with rdPos := 2 } : State).space = 1 ∧
    ({ running [{ samplerSlot 1 4 0 with ison := true }] 4 with rdPos := 2 } : State).tickPuts = 2 ∧
    ({ running [{ samplerSlot 1 4 0 with ison := true }] 4 with rdPos := 2 } : State).tick.ovf = true ∧
    ∀ i, i < (running [taskSlot 1 2 1] 0).actn → ((running [taskSlot 1 2 1] 0).act i).smp = false := by decide

/-- Each field of the command's column, written by a command that may write it. -/
theorem witness_HostCommandsWriteOnlyTheirFields :
    (next busy (exec .stop busy)).run ≠ busy.run ∧ (next State.reset (exec .init State.reset)).tinit ≠ State.reset.tinit ∧
    (next State.reset (exec .init (failing State.reset))).fatal = true ∧
    (next busy (exec (.start 2) busy)).clock ≠ busy.clock ∧ (next busy (exec .get busy)).rdPos ≠ busy.rdPos ∧
    (next staged (exec (.actcfg 3) staged)).act 3 ≠ withRunTime (staged.act 3) ((next staged (exec (.actcfg 3) staged)).act 3) ∧
    (next staged (exec (.csrw 0x013 1) staged)).cfgFlags ≠ staged.cfgFlags ∧
    (next busy (exec (.csrr 0x009) busy)).errCause ≠ busy.errCause ∧ (next busy (exec (.csrr 0x009) busy)).cmdErr = true ∧
    (next State.reset (exec (.actcfg 0) State.reset)).cfgErr = true ∧
    (next { busy with cmdErr := true } (exec (.csrw 0x000 0x40) { busy with cmdErr := true })).cmdErr = false := by decide

/-- A command carried out, one refused for its configuration and one refused otherwise. -/
theorem witness_RefusalsAndResponses :
    isNext (exec .stop busy) (next busy (exec .stop busy)) ∧
    (next State.reset (exec (.actcfg 0) State.reset)).cfgErr = true ∧
    (next State.reset (exec (.start 0) State.reset)).cmdErr = true := by decide

/-- A set flag and a step that clears it, by CSRW and by reset. -/
theorem witness_StickyFlagsNeedClearing :
    (next busy (step (planned { busy with ovf := true } [.command 0x21000000 0x08]))).ovf = false ∧
    (next busy (step (planned { busy with unf := true } [.command 0x21000000 0x10]))).unf = false ∧
    (next busy (step (planned { busy with cfgErr := true } [.command 0x21000000 0x20]))).cfgErr = false ∧
    (next busy (step (planned { busy with cmdErr := true } [.command 0x21000000 0x40]))).cmdErr = false ∧
    (next { busy with ovf := true } (step (planned { busy with ovf := true } [.reset]))).ovf = false := by decide

/-- The fatal state: a START in it is refused and leaves it. -/
theorem witness_FatalAndInitialisedUntilReset :
    (stepWord 0x02000000 { State.reset with fatal := true, tinit := true }).fatal = true ∧
    (stepWord 0x02000000 { State.reset with fatal := true, tinit := true }).run = false ∧
    ¬ ResetNext { State.reset with fatal := true, tinit := true } :=
  ⟨by decide, by decide, fun h => by obtain ⟨rest, h⟩ := h; cases h⟩

/-- The run of ticks alone: `RUN = 1`, no START, no reset, and no program. -/
def ticking : Run :=
  { state := fun n => (fun s => s.takeTick [])^[n] (running [] 0), event := fun _ => .tick, program := fun _ => none }

theorem ticking_run (n : Nat) : (ticking.state n).run = true := by
  induction n with
  | zero => rfl
  | succ k ih =>
    rw [show ticking.state (k + 1) = (ticking.state k).takeTick [] from Function.iterate_succ_apply' ..]
    exact (TickFrame.tick _).run.trans ih

/-- The run of a host that polls AVAIL without end at `RUN = 0`: no tick is enabled in it. -/
def polling : Run :=
  { state := fun n => { withHistory State.reset (List.replicate n (.event (.command 0x10000000 0))) with
      resp := match n with | 0 => none | _ + 1 => answers 0 0 0 0 }
    event := fun _ => .command 0x10000000 0
    program := fun _ => some (0x10000000, 0) }

theorem witness_FairRunsIssueAndTick : (ticking.Infinite ∧ ticking.Fair) ∧ (∀ n, (ticking.state n).run = true) ∧
    polling.Infinite ∧ polling.Fair ∧ (polling.state 0).run = false := by
  refine ⟨⟨⟨fun n => ?_, fun n _ => ticking_run n, fun n cmd wdata h => by cases h⟩,
      ⟨fun _ n => ⟨n, Nat.le_refl n, rfl⟩, fun n h => absurd rfl h⟩⟩, ticking_run,
    ⟨fun n => rfl, fun n h => (by cases h), fun n cmd wdata h => (by cases h; rfl)⟩,
    ⟨fun ⟨n, h⟩ => absurd (h n (Nat.le_refl n)) (by simp [polling, withHistory, State.reset, State.afterReset]),
      fun n _ => ⟨n, Nat.le_refl n, rfl⟩⟩, rfl⟩
  rw [show ticking.state (n + 1) = (ticking.state n).takeTick [] from Function.iterate_succ_apply' ..]
  have h := ticking_run n
  generalize ticking.state n = s at *
  show Host.Outcome.next (if s.run = true then s.takeTick [] else _) = _
  rw [if_pos h]

/-- Readings at both ends of the range of `ADC_WIDTH`. -/
theorem witness_DrawsTakeEveryValue :
    ({ State.reset with env := { Env.initial with adc := [0xFFF] } } : State).adcAnswer 0 = 0xFFF ∧
    ({ State.reset with env := { Env.initial with adc := [0] } } : State).adcAnswer 0 = 0 ∧
    State.reset.cfg.timerCanFail = false ∧ (failing State.reset).cfg.timerCanFail = true := by decide

end Sys2Proof.Tests
end

section
/-! PROOFS of the statements about 10_state.md, first part: what every command leaves unchanged, and the two
invariants of the state's form and contents (O54, O56). -/

namespace Sys2Proof.Machine

/-! ## The frame of a command -/

/-- What no command writes (10_state.md R48): the parameters, the agenda, the producer's side of the ring and the
number of slots. -/
structure CommandFrame (s t : State) : Prop where
  cfg : t.cfg = s.cfg
  agenda : t.agenda = s.agenda
  wrPos : t.wrPos = s.wrPos
  slots : t.slots = s.slots
  acts_length : t.acts.length = s.acts.length

theorem Executed.frame {s t : State} {i : Instr} (h : Executed s i t) : CommandFrame s t := by
  cases h with
  | startFail n | startDone n =>
    obtain ⟨hb, hl, -⟩ := s.beginRun_spec n
    rw [hb]; exact ⟨rfl, rfl, rfl, rfl, hl⟩
  | stopped =>
    obtain ⟨hb, hl, -⟩ := s.stopSequence_spec
    rw [hb]; exact ⟨rfl, rfl, rfl, rfl, hl⟩
  | got => rw [s.afterRbGet_eq]; exact ⟨rfl, rfl, rfl, rfl, rfl⟩
  | configured k => exact ⟨rfl, rfl, rfl, rfl, List.length_set⟩
  | _ => exact ⟨rfl, rfl, rfl, rfl, rfl⟩

/-! ## The form of a state (R30, R31, R32) -/

/-- Where a command leaves the indices it may write: START records a set within the array, STOP the empty one, GET
and FLUSH leave `RDPOS` within `CAPACITY`. -/
theorem Executed.actn_rdPos {s t : State} {i : Instr} (h : Executed s i t) (hs : s.Shape) :
    t.actn ≤ s.cfg.nAct ∧ t.rdPos < s.cfg.capacity := by
  obtain ⟨-, -, ha, hr, hw, -, -⟩ := hs
  cases h with
  | startFail n _ _ hn | startDone n _ _ hn => rw [(s.beginRun_spec n).1]; exact ⟨hn, hr⟩
  | stopped => rw [s.stopSequence_spec.1]; exact ⟨Nat.zero_le _, hr⟩
  | got => rw [s.afterRbGet_eq]; exact ⟨ha, Nat.mod_lt _ (by omega)⟩
  | flushed => exact ⟨ha, hw⟩
  | _ => exact ⟨ha, hr⟩

theorem Executed.shape {s t : State} {i : Instr} (h : Executed s i t) (hs : s.Shape) : t.Shape := by
  obtain ⟨hcfg, -, hwr, hslots, hlen⟩ := h.frame
  obtain ⟨hactn, hrd⟩ := h.actn_rdPos hs
  obtain ⟨hok, hl, -, -, hw, hwf, hlt⟩ := hs
  constructor <;> simp only [hcfg, hwr, hslots, hlen] <;> assumption

theorem State.shape_took {s : State} (hs : s.Shape) (e : Event) (rest : List Event) : (s.took e rest).Shape :=
  ⟨hs.params, hs.acts_length, hs.actn_le, hs.rdPos_lt, hs.wrPos_lt, hs.slots_wf, hs.slots_lt⟩

/-- A tick writes the ring by puts alone, and keeps the set, `RDPOS` and the number of slots. -/
theorem State.shape_tick {s : State} (hs : s.Shape) : s.tick.Shape := by
  obtain ⟨hok, hl, ha, hr, hw, hwf, hlt⟩ := hs
  have hf := TickFrame.tick s
  obtain ⟨recs, hp, -⟩ := RingPuts.tick (s := s) (hl ▸ ha)
  obtain ⟨hw', hwf', hlt'⟩ := hp.shape hw hwf hlt
  exact ⟨hf.cfg ▸ hok, by rw [hf.acts_length, hf.cfg, hl], by rw [hf.actn, hf.cfg]; exact ha,
    by rw [hf.rdPos, hf.cfg]; exact hr, hw', hwf', hlt'⟩

theorem State.shape_afterReset {cfg : Params} (h : cfg.Ok) (agenda : List Event) (env : Env) :
    (State.afterReset cfg agenda env).Shape :=
  have hpos : 0 < cfg.capacity := Nat.lt_of_lt_of_le (by decide) h.1
  ⟨h, List.length_replicate, Nat.zero_le _, hpos, hpos, Memory.reset_wf cfg agenda env, fun _ hx => nomatch hx⟩

/-- Settles O54, case by case of what a step can do. -/
theorem stepsKeepShape : Obligations.StepsKeepShape := by
  intro s t hs h
  cases step_cases h with
  | command cmd wdata rest i t _ _ he => exact ⟨he.shape (State.shape_took hs _ _), he.frame.cfg⟩
  | rejected | dropped =>
    exact ⟨⟨hs.params, hs.acts_length, hs.actn_le, hs.rdPos_lt, hs.wrPos_lt, hs.slots_wf, hs.slots_lt⟩, rfl⟩
  | ticked => exact ⟨State.shape_tick (State.shape_took hs _ _), (TickFrame.tick _).cfg⟩
  | reset => exact ⟨State.shape_afterReset hs.params _ _, rfl⟩

/-! ## What a slot may hold (R34, R36) -/

/-- The contents of one slot: `Configured` and `TaskIdle` of a single slot. -/
structure Activity.Sound (a : Activity) : Prop where
  valid : a.conf = true → a.Valid
  idle : a.smp = false → a.ts = 0 ∧ a.cnt = 0 ∧ a.sum = 0

theorem State.sound_iff {s : State} : (∀ j, (s.act j).Sound) ↔ s.Configured ∧ s.TaskIdle :=
  ⟨fun h => ⟨fun j => (h j).valid, fun j => (h j).idle⟩, fun ⟨hc, hi⟩ j => ⟨hc j, hi j⟩⟩

theorem Activity.sound_reset : Activity.reset.Sound := ⟨fun h => (nomatch h), fun _ => ⟨rfl, rfl, rfl⟩⟩

/-- The values of R34 are none that a tick, START or STOP writes. -/
theorem Activity.Valid.runTime {a : Activity} (h : a.Valid) {b : Bool} {ts cnt sum : Word} :
    ({ a with ison := b, ts := ts, cnt := cnt, sum := sum } : Activity).Valid :=
  ⟨h.period_pos, h.duration_le, h.duration_range⟩

theorem Activity.sound_ison {a : Activity} (h : a.Sound) (b : Bool) : ({ a with ison := b } : Activity).Sound :=
  ⟨fun hc => (h.valid hc).runTime, h.idle⟩

theorem Activity.sound_cleared {a : Activity} (h : a.Sound) (b : Bool) :
    ({ a with ison := b, ts := 0, cnt := 0, sum := 0 } : Activity).Sound :=
  ⟨fun hc => (h.valid hc).runTime, fun _ => ⟨rfl, rfl, rfl⟩⟩

/-- A sample keeps a slot sound: only a SAMPLER is sampled, and its accumulators are free. -/
theorem Activity.sound_sampled {a : Activity} (h : a.Sound) (hs : a.smp = true) (ts cnt sum : Word) :
    ({ a with ts := ts, cnt := cnt, sum := sum } : Activity).Sound :=
  ⟨fun hc => (h.valid hc).runTime, fun hn => by simp [hs] at hn⟩

theorem Activity.sound_afterStart {a : Activity} (h : a.Sound) : a.afterStart.Sound := by
  unfold Activity.afterStart
  split
  · exact sound_cleared h false
  · exact sound_ison h false

theorem Activity.sound_opened {a : Activity} (h : a.Sound) : a.opened.Sound := by
  unfold Activity.opened
  split
  · exact sound_cleared h true
  · exact sound_ison h true

theorem Activity.sound_afterStep {a : Activity} (h : a.Sound) (now : Word) : (a.afterStep now).Sound := by
  unfold Activity.afterStep
  split
  · exact h
  · split
    · exact sound_ison (sound_opened h) _
    · exact sound_ison h _

/-- What ACTCFG writes under its checks (43_dispatcher.md R189). -/
theorem State.sound_stagedActivity {s : State} (h : s.StagedOk) : s.stagedActivity.Sound :=
  ⟨fun _ => ⟨h.period, h.duration_le, h.duration_range⟩, fun _ => ⟨rfl, rfl, rfl⟩⟩

theorem Executed.sound {s t : State} {i : Instr} (h : Executed s i t) (hs : ∀ j, (s.act j).Sound) (j : Nat) :
    (t.act j).Sound := by
  cases h with
  | startFail n | startDone n =>
    show ((s.beginRun n).act j).Sound
    rw [(s.beginRun_spec n).2.2]
    split
    · exact Activity.sound_afterStart (hs j)
    · split
      · exact Activity.sound_ison (hs j) false
      · exact hs j
  | stopped =>
    show (s.stopSequence.act j).Sound
    rw [s.stopSequence_spec.2.2]
    split
    · exact Activity.sound_ison (hs j) false
    · exact hs j
  | configured k _ _ ho =>
    rw [State.act_respond, State.act_setAct]
    split
    · exact State.sound_stagedActivity ho
    · exact hs j
  | got => rw [s.afterRbGet_eq]; exact hs j
  | _ => exact hs j

/-- `ActUpdate` keeps its slot sound. -/
theorem State.sound_actUpdate {s : State} {i : Nat} (h : (s.act i).Sound) (now : Word) :
    ((s.actUpdate i now).act i).Sound := by
  by_cases hi : i < s.acts.length
  · have hstep := Activity.sound_afterStep h now
    rw [← State.act_taskStep s i now hi] at hstep
    unfold State.actUpdate State.sampleIfOn
    split
    · rename_i hs
      rw [State.act_sample _ _ (by rwa [State.acts_length_taskStep])]
      exact Activity.sound_sampled hstep hs.1 _ _ _
    · exact hstep
  · rwa [State.actUpdate_of_length_le i now (by omega)]

theorem State.sound_tick {s : State} (hs : ∀ j, (s.act j).Sound) (j : Nat) : (s.tick.act j).Sound := by
  obtain ⟨hout, hin⟩ := s.act_tick j
  rcases Nat.lt_or_ge j s.actn with hj | hj
  · obtain ⟨u, -, hu, -, ht⟩ := hin hj
    rw [ht]
    exact State.sound_actUpdate (hu ▸ hs j) _
  · rw [hout hj]
    exact hs j

theorem State.act_afterReset (cfg : Params) (agenda : List Event) (env : Env) (j : Nat) :
    (State.afterReset cfg agenda env).act j = Activity.reset := by
  simp [State.act, State.afterReset, List.getD_eq_getElem?_getD, List.getElem?_replicate]
  split <;> rfl

/-! ## What a record may hold (20_memory.md R61) -/

/-- A record's pin word is an `OPIN`, of 8 bits. -/
theorem Activity.pinWord_record_lt (a : Activity) : a.record.pinWord.toNat < 256 := by
  have := a.opin.isLt
  simp only [Activity.record, BitVec.toNat_setWidth]
  omega

/-- Every record `TaskStep` puts is the record of some slot. -/
theorem Activity.exists_record_of_mem_stepPuts {a : Activity} {now : Word} {r : SampleRecord}
    (h : r ∈ a.stepPuts now) : ∃ b : Activity, r = b.record := by
  unfold Activity.stepPuts at h
  split at h
  · simp at h
  · split at h
    · simp only [List.mem_append, List.mem_ite_nil_right, List.mem_singleton] at h
      rcases h with ⟨-, h⟩ | ⟨-, h⟩
      · exact ⟨_, h⟩
      · exact ⟨_, h⟩
    · simp only [List.mem_ite_nil_right, List.mem_singleton] at h
      exact ⟨_, h.2⟩

theorem State.pinWords_rbPuts {s : State} (hs : s.PinWords) {recs : List SampleRecord}
    (hr : ∀ r ∈ recs, r.pinWord.toNat < 256) : (s.rbPuts recs).PinWords := by
  induction recs generalizing s with
  | nil => exact hs
  | cons r rest ih =>
    refine ih (fun x hx => ?_) fun r' h' => hr r' (List.mem_cons_of_mem _ h')
    rcases Memory.mem_write hx with rfl | hx
    · exact hr r List.mem_cons_self
    · exact hs x hx

theorem State.pinWords_actUpdate {s : State} (hs : s.PinWords) (i : Nat) (now : Word) :
    (s.actUpdate i now).PinWords := by
  by_cases hi : i < s.acts.length
  · have hp := State.pinWords_rbPuts hs (recs := (s.act i).stepPuts now) fun r hr => by
      obtain ⟨b, rfl⟩ := Activity.exists_record_of_mem_stepPuts hr
      exact b.pinWord_record_lt
    have hslots := (RingPuts.actUpdate s i now hi).1
    intro x hx
    exact hp x (hslots ▸ hx)
  · rwa [State.actUpdate_of_length_le i now (by omega)]

theorem State.pinWords_pass {s : State} (hs : s.PinWords) (n : Nat) (sec : Bool) (now : Word) :
    (s.pass n sec now).PinWords := by
  refine forBelow_induct (R := fun s t => s.PinWords → t.PinWords) (fun _ h => h) (fun h k hs => k (h hs))
    (fun i t _ ht => ?_) s hs
  split
  · exact State.pinWords_actUpdate ht i now
  · exact ht

theorem State.pinWords_tick {s : State} (hs : s.PinWords) : s.tick.PinWords :=
  State.pinWords_pass (State.pinWords_pass (s := s.advanceClock) hs _ _ _) _ _ _

/-- Settles O56: each slot stays sound and each put's pin word is an `OPIN`. -/
theorem stepsKeepSlotContents : Obligations.StepsKeepSlotContents := by
  intro s t hconf hidle hpin h
  have hs := State.sound_iff.mpr ⟨hconf, hidle⟩
  suffices ht : (∀ j, (t.act j).Sound) ∧ t.PinWords from
    have ⟨hc, hi⟩ := State.sound_iff.mp ht.1
    ⟨hc, hi, ht.2⟩
  cases step_cases h with
  | command cmd wdata rest i t _ _ he =>
    refine ⟨he.sound hs, fun x hx => hpin x ?_⟩
    rwa [he.frame.slots] at hx
  | rejected | dropped => exact ⟨hs, hpin⟩
  | ticked => exact ⟨State.sound_tick hs, State.pinWords_tick hpin⟩
  | reset => exact ⟨fun j => State.act_afterReset _ _ _ j ▸ Activity.sound_reset, fun _ hx => nomatch hx⟩

end Sys2Proof.Machine
end

section
/-! PROOFS of the statements about 10_state.md, second part: what CSRR reads and which addresses are unmapped (O12 to
O15, O32). -/

namespace Sys2Proof.Machine
open Sys2Proof.Claims

/-! ## CSRR and CSRW by the CSR map (44_csr.md R221, R222) -/

theorem exec_csrr_of_csrAt {s : State} {a : Nat} {c : Csr} (h : csrAt s.cfg.nAct a = some c) :
    exec (.csrr a) s = .next { s with resp := answers (s.readCsr c) 0 0 0 } := by
  simp only [exec, execCsrr, h]
  rfl

theorem csrAt_of_not_mapped {nAct a : Nat} (h : ¬ Mapped nAct a) : csrAt nAct a = none := by
  unfold Mapped at h
  unfold csrAt
  repeat rw [if_neg (by omega)]

/-- A slot's register `k` reads as register `k` of the slot (10_state.md R44). -/
theorem exec_csrr_act {s : State} {i k : Nat} (hi : i < s.cfg.nAct) (hk : k < 8) :
    exec (.csrr (0x100 + 8 * i + k)) s =
      .next { s with resp := answers (s.readActReg i (ActReg.ofIndex k)) 0 0 0 } :=
  exec_csrr_of_csrAt (csrAt_act hi hk)

/-- A register that holds a number below `2 ^ 32` reads as that number. -/
theorem exec_csrr_ofNat {s : State} {a n : Nat} {c : Csr} (h : csrAt s.cfg.nAct a = some c)
    (hr : s.readCsr c = BitVec.ofNat 32 n) (hn : n < 2 ^ 32) :
    ∃ w : Word, w.toNat = n ∧ exec (.csrr a) s = .next { s with resp := answers w 0 0 0 } :=
  ⟨BitVec.ofNat 32 n, by rw [BitVec.toNat_ofNat, Nat.mod_eq_of_lt hn], hr ▸ exec_csrr_of_csrAt h⟩

/-- Settles O12: each address is a row of the CSR map, and each index and parameter is below `2 ^ 32`. -/
theorem csrrReadsControlRegisters : Obligations.CsrrReadsControlRegisters := by
  intro s hs
  obtain ⟨⟨-, hcap, -, hnact, -, -⟩, -, hactn, hrd, hwr, -, -⟩ := hs
  refine ⟨exec_csrr_of_csrAt (c := .errCause) rfl, exec_csrr_of_csrAt (c := .clock) rfl,
    exec_csrr_ofNat (c := .actn) rfl rfl ?_, exec_csrr_ofNat (c := .rdPos) rfl rfl ?_,
    exec_csrr_ofNat (c := .wrPos) rfl rfl ?_, exec_csrr_ofNat (c := .cap) rfl rfl ?_,
    exec_csrr_ofNat (c := .nact) rfl rfl ?_, exec_csrr_of_csrAt (c := .cfgOffset) rfl,
    exec_csrr_of_csrAt (c := .cfgPeriod) rfl, exec_csrr_of_csrAt (c := .cfgDuration) rfl,
    exec_csrr_of_csrAt (c := .cfgFlags) rfl⟩ <;> omega

/-! ## Words read bit by bit (10_state.md R40, R42, R45) -/

theorem State.statusWord_getLsbD (s : State) {b : Nat} (hb : b < 32) :
    s.statusWord.getLsbD b = if b = 0 then s.run else if b = 1 then s.tinit else if b = 2 then s.fatal
      else if b = 3 then s.ovf else if b = 4 then s.unf else if b = 5 then s.cfgErr
      else if b = 6 then s.cmdErr else false := by
  rw [State.statusWord, wordOfBits_getLsbD _ b hb]
  interval_cases b <;> rfl

theorem Activity.stateWord_getLsbD (a : Activity) (inSet : Bool) {b : Nat} (hb : b < 32) :
    (a.stateWord inSet).getLsbD b =
      if b = 0 then a.ison else if b = 1 then a.conf else if b = 2 then inSet else false := by
  rw [Activity.stateWord, wordOfBits_getLsbD _ b hb]
  interval_cases b <;> rfl

/-- Bit `i` of `OUT` is `A[i].ISON` (R42). -/
theorem State.out_getLsbD {s : State} (hl : s.acts.length = s.cfg.nAct) {b : Nat} (hb : b < 32) :
    s.out.getLsbD b = if b < s.cfg.nAct then (s.act b).ison else false := by
  have ht : s.acts.take s.cfg.nAct = s.acts := List.take_of_length_le hl.le
  simp only [State.out, ht, BitVec.getLsbD_setWidth, hb, decide_true, Bool.true_and, BitVec.getLsbD_ofBoolListLE,
    State.act]
  split
  · rename_i hlt
    simp [hl, hlt]
  · rename_i hge
    simp [hl, hge]

/-- Settles O13: both words are a list of bits, cut to 32. -/
theorem csrrReadsStatusAndOut : Obligations.CsrrReadsStatusAndOut := by
  intro s hs
  exact ⟨⟨_, exec_csrr_of_csrAt (c := .status) rfl, fun _ hb => s.statusWord_getLsbD hb⟩,
    ⟨_, exec_csrr_of_csrAt (c := .out) rfl, fun _ hb => State.out_getLsbD hs.acts_length hb⟩⟩

/-- A concatenation as a number. -/
theorem toNat_append_eq_mul_add {m n : Nat} (x : BitVec m) (y : BitVec n) :
    (x ++ y).toNat = x.toNat * 2 ^ n + y.toNat := by
  rw [BitVec.toNat_append, ← Nat.shiftLeft_add_eq_or_of_lt y.isLt, Nat.shiftLeft_eq]

/-- The layout of `ACT<i>_FLAGS` by weight (R43, R44). -/
theorem Activity.flagsWord_toNat (a : Activity) :
    a.flagsWord.toNat = a.opin.toNat * 2 ^ 16 + a.ppin.toNat * 2 ^ 8 + a.smp.toNat * 2 + a.sec.toNat := by
  simp only [Activity.flagsWord, Asm.flags, toNat_append_eq_mul_add, BitVec.toNat_ofBool, BitVec.toNat_ofNat]
  omega

/-- Settles O14: the eight rows of the slot. -/
theorem csrrReadsActivitySlots : Obligations.CsrrReadsActivitySlots := by
  intro s i _ hi
  exact ⟨exec_csrr_act (k := 0) hi (by decide), exec_csrr_act hi (by decide), exec_csrr_act hi (by decide),
    ⟨_, exec_csrr_act hi (by decide), (s.act i).flagsWord_toNat⟩,
    ⟨_, exec_csrr_act hi (by decide), fun _ hb => (s.act i).stateWord_getLsbD _ hb⟩,
    exec_csrr_act hi (by decide), exec_csrr_act hi (by decide), exec_csrr_act hi (by decide)⟩

/-- Settles O15: no row of the CSR map names the address. -/
theorem unmappedCsrsAreRefused : Obligations.UnmappedCsrsAreRefused := by
  intro s a v h
  simp only [exec, execCsrr, execCsrw, csrAt_of_not_mapped h]
  exact ⟨rfl, rfl⟩

/-! ## The flags a slot is configured with (10_state.md R43, R44) -/

/-- The `CFG_FLAGS` value of an accepted ACTCFG reads back from the slot: its reserved bits are clear, and the slot
holds the others. -/
theorem State.flagsWord_stagedActivity {s : State} (h : flagsBad s.cfgFlags = false) :
    s.stagedActivity.flagsWord = s.cfgFlags := by
  have hlt := s.cfgFlags.isLt
  simp only [flagsBad, Bool.or_eq_false_iff, bne_eq_false_iff_eq, ← BitVec.toNat_inj, BitVec.extractLsb'_toNat,
    Nat.shiftRight_eq_div_pow, BitVec.ofNat_eq_ofNat, BitVec.toNat_ofNat] at h
  apply BitVec.eq_of_toNat_eq
  rw [Activity.flagsWord_toNat]
  simp only [State.stagedActivity, flagsOpin, flagsPpin, flagsSmp, flagsSec, BitVec.extractLsb'_toNat,
    Nat.shiftRight_eq_div_pow, ← BitVec.testBit_toNat, Nat.toNat_testBit]
  omega

/-- Settles O32: only an ACTCFG that is carried out answers 1, and it leaves the staged slot. -/
theorem acceptedFlagsReadBack : Obligations.AcceptedFlagsReadBack := by
  intro s t i hl h hr
  cases exec_cases h with
  | refused => simp [answers] at hr
  | responded _ _ hi => simp at hi
  | configured k hk _ ho =>
    have hflags : (((s.setAct i s.stagedActivity).respond 0 0 0 0).act i).flagsWord = s.cfgFlags := by
      rw [State.act_respond, State.act_setAct_same _ (hl ▸ hk), State.flagsWord_stagedActivity ho.flags]
    rw [← hflags]
    exact exec_csrr_act (k := 3) hk (by decide)

end Sys2Proof.Machine
end

section
/-! PROOFS of the statements about 10_state.md, third part: which field each command writes (R48), how long flags
last, and the reset event (O50, O52, O53, O9). -/

namespace Sys2Proof.Machine
open Sys2Proof.Claims

/-! ## The writers' table, by groups of fields (R48) -/

/-- The command is a CSRW to `STATUS` whose written word has bit `b` set (44_csr.md R223). -/
def ClearsFlag (i : Instr) (b : Nat) : Prop := ∃ v, i = .csrw 0x000 v ∧ v.getLsbD b = true

theorem ClearsFlag.status {i : Instr} {b : Nat} (h : ClearsFlag i b) : ∃ v, i = .csrw 0x000 v :=
  h.imp fun _ hv => hv.1

theorem canBeRefused_of_raisedBy {c : Cause} {i : Instr} (h : c.raisedBy i = true) : CanBeRefused i := by
  cases i <;> simp [Cause.raisedBy] at h <;> simp [CanBeRefused]

theorem eq_of_or_ne_left {a b : Bool} (h : (a || b) ≠ a) : a = false ∧ b = true := by
  revert a b; decide

/-- Who writes the run state: START, STOP and INIT. -/
theorem Executed.runState_writes {s t : State} {i : Instr} (h : Executed s i t) :
    (t.run ≠ s.run → (∃ n, i = .start n) ∨ i = .stop ∨ i = .init) ∧
    (t.tinit ≠ s.tinit → i = .init) ∧
    (t.fatal ≠ s.fatal → i = .init ∨ ∃ n, i = .start n) ∧
    (t.clock ≠ s.clock → ∃ n, i = .start n) ∧
    (t.actn ≠ s.actn → i = .stop ∨ ∃ n, i = .start n) := by
  cases h with
  | startFail n | startDone n => rw [(s.beginRun_spec n).1]; simp
  | stopped => rw [s.stopSequence_spec.1]; simp
  | got => rw [s.afterRbGet_eq]; simp
  | _ => simp

/-- Who writes the consumer's index and the staging registers. -/
theorem Executed.host_writes {s t : State} {i : Instr} (h : Executed s i t) :
    (t.rdPos ≠ s.rdPos → i = .get ∨ i = .flush) ∧
    (t.cfgOffset ≠ s.cfgOffset → ∃ v, i = .csrw 0x010 v) ∧
    (t.cfgPeriod ≠ s.cfgPeriod → ∃ v, i = .csrw 0x011 v) ∧
    (t.cfgDuration ≠ s.cfgDuration → ∃ v, i = .csrw 0x012 v) ∧
    (t.cfgFlags ≠ s.cfgFlags → ∃ v, i = .csrw 0x013 v) := by
  cases h with
  | startFail n | startDone n => rw [(s.beginRun_spec n).1]; simp
  | stopped => rw [s.stopSequence_spec.1]; simp
  | got => rw [s.afterRbGet_eq]; simp
  | _ => simp

/-- Who sets and who clears the four sticky flags: GET may set `UNF`, a refusal or a failure `CFGERR` or `CMDERR`, and
only a CSRW to `STATUS` clears. -/
theorem Executed.flag_writes {s t : State} {i : Instr} (h : Executed s i t) :
    (t.ovf ≠ s.ovf → s.ovf = true ∧ ClearsFlag i 3) ∧
    (t.unf ≠ s.unf → (s.unf = false ∧ i = .get) ∨ (s.unf = true ∧ ClearsFlag i 4)) ∧
    (t.cfgErr ≠ s.cfgErr → (s.cfgErr = false ∧ ∃ k, i = .actcfg k) ∨ (s.cfgErr = true ∧ ClearsFlag i 5)) ∧
    (t.cmdErr ≠ s.cmdErr → (s.cmdErr = false ∧ CanBeRefused i) ∨ (s.cmdErr = true ∧ ClearsFlag i 6)) := by
  cases h with
  | refused i c hc =>
    refine ⟨fun h => absurd rfl h, fun h => absurd rfl h, fun h => .inl ?_, fun h => .inl ?_⟩
    · obtain ⟨hclear, hcfg⟩ := eq_of_or_ne_left h
      exact ⟨hclear, Cause.isConfig_of_raisedBy hc hcfg⟩
    · exact ⟨(eq_of_or_ne_left h).1, canBeRefused_of_raisedBy hc⟩
  | startFail n | startDone n => rw [(s.beginRun_spec n).1]; simp +contextual [CanBeRefused]
  | stopped => rw [s.stopSequence_spec.1]; simp
  | got => rw [s.afterRbGet_eq]; simp +contextual
  | initFail => simp +contextual [CanBeRefused]
  | cleared v => simp +contextual [ClearsFlag]
  | _ => simp

/-- Only a command that can be refused or can fail writes `ERRCAUSE`. -/
theorem Executed.errCause_writes {s t : State} {i : Instr} (h : Executed s i t) :
    t.errCause ≠ s.errCause → CanBeRefused i := by
  cases h with
  | refused i c hc => exact fun _ => canBeRefused_of_raisedBy hc
  | startFail | startDone | initFail => simp [CanBeRefused]
  | stopped => rw [s.stopSequence_spec.1]; simp
  | got => rw [s.afterRbGet_eq]; simp
  | _ => simp

/-- What the writers' table lets a command do to slot `k`, from `a` to `b`: ACTCFG writes its own slot, START and STOP
the run-time fields. -/
structure SlotWrites (i : Instr) (k : Nat) (a b : Activity) : Prop where
  config : b ≠ withRunTime a b → i = .actcfg k
  ison : b.ison ≠ a.ison → i = .actcfg k ∨ i = .stop ∨ ∃ n, i = .start n
  accumulators : (b.ts ≠ a.ts ∨ b.cnt ≠ a.cnt ∨ b.sum ≠ a.sum) → i = .actcfg k ∨ ∃ n, i = .start n

theorem SlotWrites.refl (i : Instr) (k : Nat) (a : Activity) : SlotWrites i k a a :=
  ⟨fun h => absurd rfl h, fun h => absurd rfl h, fun h => by simp at h⟩

theorem SlotWrites.actcfg (k : Nat) (a b : Activity) : SlotWrites (.actcfg k) k a b :=
  ⟨fun _ => rfl, fun _ => .inl rfl, fun _ => .inl rfl⟩

theorem SlotWrites.start (n k : Nat) {a b : Activity} (h : b = withRunTime a b) : SlotWrites (.start n) k a b :=
  ⟨fun hn => absurd h hn, fun _ => .inr (.inr ⟨n, rfl⟩), fun _ => .inr ⟨n, rfl⟩⟩

theorem SlotWrites.stop (k : Nat) (a : Activity) : SlotWrites .stop k a { a with ison := false } :=
  ⟨fun h => absurd rfl h, fun _ => .inr (.inl rfl), fun h => by simp at h⟩

/-- START writes the run-time fields of a slot alone (41_periodic_task.md R141, R142). -/
theorem State.slotWrites_beginRun (s : State) (n k : Nat) :
    SlotWrites (.start n) k (s.act k) ((s.beginRun n).act k) := by
  refine SlotWrites.start n k ?_
  rw [(s.beginRun_spec n).2.2]
  unfold Activity.afterStart
  split_ifs <;> rfl

theorem Executed.slot_writes {s t : State} {i : Instr} (h : Executed s i t) (k : Nat) :
    SlotWrites i k (s.act k) (t.act k) := by
  cases h with
  | startFail n | startDone n => exact s.slotWrites_beginRun n k
  | stopped =>
    rw [State.act_respond, s.stopSequence_spec.2.2]
    split
    · exact SlotWrites.stop k _
    · exact SlotWrites.refl ..
  | configured j =>
    rw [State.act_respond, State.act_setAct]
    split
    · rename_i hj
      exact hj.1 ▸ SlotWrites.actcfg ..
    · exact SlotWrites.refl ..
  | got => rw [s.afterRbGet_eq]; exact SlotWrites.refl ..
  | _ => exact SlotWrites.refl ..

/-- Settles O50, group by group of the fields. -/
theorem hostCommandsWriteOnlyTheirFields : Obligations.HostCommandsWriteOnlyTheirFields := by
  intro i s t h
  have he := exec_cases h
  obtain ⟨hrun, htinit, hfatal, hclock, hactn⟩ := he.runState_writes
  obtain ⟨hrd, hoff, hper, hdur, hflags⟩ := he.host_writes
  obtain ⟨hovf, hunf, hcfgErr, hcmdErr⟩ := he.flag_writes
  obtain ⟨hcfg, hagenda, hwr, hslots, -⟩ := he.frame
  exact ⟨hrun, htinit, hfatal, fun hn => (hovf hn).imp_right ClearsFlag.status,
    fun hn => (hunf hn).imp And.right fun hc => hc.2.status, hclock, hactn, hrd, he.errCause_writes, hcfgErr, hcmdErr,
    hwr, fun k => hslots ▸ rfl, hoff, hper, hdur, hflags, fun k => (he.slot_writes k).config,
    fun k => (he.slot_writes k).ison, fun k => (he.slot_writes k).accumulators, hcfg, hagenda⟩

/-! ## How long flags last (R22 to R27) -/

/-- The write data of a decoded CSRW is the command's (30_encoding.md R85). -/
theorem wdata_of_decode_csrw {cmd wdata v : Word} {a : Nat} (h : decode cmd wdata = .instr (.csrw a v)) :
    v = wdata := by
  unfold decode at h
  split at h
  · cases h
  · rename_i op _
    split at h
    · cases op <;> cases h
      rfl
    · cases h

theorem statusClearNext_of_clearsFlag {s : State} {cmd wdata : Word} {rest : List Event} {i : Instr} {b : Nat}
    (ha : s.agenda = .command cmd wdata :: rest) (hd : decode cmd wdata = .instr i) (h : ClearsFlag i b) :
    StatusClearNext s b := by
  obtain ⟨v, rfl, hv⟩ := h
  obtain rfl := wdata_of_decode_csrw hd
  exact ⟨cmd, v, rest, ha, hd, hv⟩

/-- A flag that is kept is not cleared. -/
theorem not_cleared_of_kept {a b : Bool} {p : Prop} (h : a = true → b = true) (ha : a = true) (hb : b = false) : p :=
  absurd (h ha) (by simp [hb])

/-- Settles O52: a command clears a flag only by `ClearsFlag`, and refusals and ticks only set flags. -/
theorem stickyFlagsNeedClearing : Obligations.StickyFlagsNeedClearing := by
  intro s t h
  cases step_cases h with
  | command cmd wdata rest i t ha hd he =>
    obtain ⟨hovf, hunf, hcfg, hcmd⟩ := he.flag_writes
    have clear {b : Nat} (hc : ClearsFlag i b) : ResetNext s ∨ StatusClearNext s b :=
      .inr (statusClearNext_of_clearsFlag ha hd hc)
    simp only [State.took_ovf, State.took_unf, State.took_cfgErr, State.took_cmdErr] at hovf hunf hcfg hcmd
    refine ⟨fun hs ht => ?_, fun hs ht => ?_, fun hs ht => ?_, fun hs ht => ?_⟩
    · exact clear (by simpa [hs, ht] using hovf)
    · exact clear (by simpa [hs, ht] using hunf)
    · exact clear (by simpa [hs, ht] using hcfg)
    · exact clear (by simpa [hs, ht] using hcmd)
  | rejected =>
    exact ⟨not_cleared_of_kept id, not_cleared_of_kept id, not_cleared_of_kept fun hs => by simp [hs],
      not_cleared_of_kept fun hs => by simp [hs]⟩
  | ticked rest =>
    have hf := TickFrame.tick (s.took .tick rest)
    exact ⟨not_cleared_of_kept hf.ovf, not_cleared_of_kept hf.unf.trans, not_cleared_of_kept hf.cfgErr.trans,
      not_cleared_of_kept hf.cmdErr.trans⟩
  | dropped =>
    exact ⟨not_cleared_of_kept id, not_cleared_of_kept id, not_cleared_of_kept id, not_cleared_of_kept id⟩
  | reset rest ha =>
    have hr : ResetNext s := ⟨rest, ha⟩
    exact ⟨fun _ _ => .inl hr, fun _ _ => .inl hr, fun _ _ => .inl hr, fun _ _ => .inl hr⟩

/-- No command leaves the fatal state or undoes INIT, and in the fatal state none sets `RUN` (60_exceptions.md R246). -/
theorem Executed.keeps_fatal_tinit {s t : State} {i : Instr} (h : Executed s i t) :
    (s.fatal = true → t.fatal = true ∧ (s.run = false → t.run = false)) ∧ (s.tinit = true → t.tinit = true) := by
  cases h with
  | startFail n hf | startDone n hf => rw [(s.beginRun_spec n).1]; simp [hf]
  | stopped => rw [s.stopSequence_spec.1]; simp
  | got => rw [s.afterRbGet_eq]; simp
  | initFail hf | initDone hf => simp [hf]
  | _ => simp

/-- Settles O53: a tick and a rejected word write none of the three flags. -/
theorem fatalAndInitialisedUntilReset : Obligations.FatalAndInitialisedUntilReset := by
  intro s t h hn
  cases step_cases h with
  | command cmd wdata rest i t _ _ he => exact he.keeps_fatal_tinit
  | rejected | dropped => exact ⟨fun hf => ⟨hf, id⟩, id⟩
  | ticked rest =>
    have hf := TickFrame.tick (s.took .tick rest)
    rw [hf.fatal, hf.run, hf.tinit]
    exact ⟨fun hf => ⟨hf, id⟩, id⟩
  | reset rest ha => exact absurd ⟨rest, ha⟩ hn

/-! ## The reset event (R47) -/

/-- Settles O9: the step is the reset event, and every slot is a copy of the slot after reset. -/
theorem resetEventSetsEveryField : Obligations.ResetEventSetsEveryField := by
  intro s rest ha
  refine ⟨(s.took .reset rest).resetEvent, by simp only [step, State.nextAction, ha], rfl, rfl, rfl, rfl, rfl, rfl, rfl,
    rfl, rfl, rfl, rfl, rfl, rfl, rfl, rfl, rfl, fun _ => rfl, List.length_replicate, fun i _ => ?_⟩
  exact State.act_afterReset ..

end Sys2Proof.Machine
end

section
/-! PROOFS of the statements about 20_memory.md: the step of a state whose agenda begins with a command that decodes
(O1; R66, 30_encoding.md R87). -/

namespace Sys2Proof.Machine
open Sys2Proof.Claims

theorem State.nextAction_command {s : State} {cmd wdata : Word} {rest : List Event}
    (ha : s.agenda = .command cmd wdata :: rest) :
    s.nextAction = (s.took (.command cmd wdata) rest).takeCommand cmd wdata := by
  rw [State.nextAction, ha]

theorem State.takeCommand_instr (s : State) {cmd wdata : Word} {i : Instr} (hd : decode cmd wdata = .instr i) :
    s.takeCommand cmd wdata = .run i s := by
  rw [State.takeCommand, hd]

theorem step_of_nextAction_run {s t : State} {i : Instr} (h : s.nextAction = .run i t) : step s = exec i t := by
  rw [step, h]

/-- Settles O1: the next action runs `i` in the state that took the command, which is the `taken` of the claim. -/
theorem stepRunsDecodedCommand : Obligations.StepRunsDecodedCommand := by
  intro s cmd wdata rest i ha hd
  have hrun : s.nextAction = .run i (taken s (.command cmd wdata) rest) :=
    (State.nextAction_command ha).trans (State.takeCommand_instr _ hd)
  exact step_of_nextAction_run hrun

end Sys2Proof.Machine
end

section
/-! PROOFS of the statements about 30_encoding.md, first part: decode and encode agree (O5, O4, O6, O3). -/

namespace Sys2Proof

/-! ## The decoder by opcode (R87 to R89) -/

theorem decode_of_code {cmd : Word} {op : Opcode} (wdata : Word) (hc : opcField cmd = op.code) :
    decode cmd wdata =
      if op.format.reservedClear cmd then .instr (op.assemble cmd wdata) else .reject .reservedField := by
  rw [decode, hc, Opcode.ofCode_code]

/-- What a word that decodes is made of. -/
theorem decode_eq_instr {cmd wdata : Word} {i : Instr} (h : decode cmd wdata = .instr i) :
    ∃ op : Opcode, opcField cmd = op.code ∧ op.format.reservedClear cmd = true ∧ i = op.assemble cmd wdata := by
  cases hop : Opcode.ofCode (opcField cmd) with
  | none => simp [decode, hop] at h
  | some op =>
    have hc := Opcode.code_of_ofCode hop
    rw [decode_of_code wdata hc] at h
    split at h
    · rename_i hr
      exact ⟨op, hc, hr, (Decoded.instr.inj h).symm⟩
    · cases h

/-! ## The fields of an encoding (R81) -/

theorem opcField_encode (i : Instr) : opcField (encode i) = i.opcode.code := by
  have ha := i.arg8.isLt
  have hc := i.csra.isLt
  apply BitVec.eq_of_toNat_eq
  rw [opcField_toNat, encode_toNat]
  omega

theorem arg8Field_encode (i : Instr) : arg8Field (encode i) = i.arg8 := by
  have ha := i.arg8.isLt
  have hc := i.csra.isLt
  apply BitVec.eq_of_toNat_eq
  rw [arg8Field_toNat, encode_toNat]
  omega

theorem rsvField_encode (i : Instr) : rsvField (encode i) = 0 := by
  have hc := i.csra.isLt
  apply BitVec.eq_of_toNat_eq
  rw [rsvField_toNat, encode_toNat]
  show _ = 0
  omega

theorem csraField_encode (i : Instr) : csraField (encode i) = i.csra := by
  have hc := i.csra.isLt
  apply BitVec.eq_of_toNat_eq
  rw [csraField_toNat, encode_toNat]
  omega

/-- A word is its four fields. -/
theorem fields_append (cmd : Word) : opcField cmd ++ arg8Field cmd ++ rsvField cmd ++ csraField cmd = cmd := by
  have h := cmd.isLt
  apply BitVec.eq_of_toNat_eq
  simp only [Machine.toNat_append_eq_mul_add, opcField_toNat, arg8Field_toNat, rsvField_toNat, csraField_toNat]
  omega

/-! ## Decode of encode -/

/-- An encoding has zeros where its format asks for them (R82 to R84). -/
theorem reservedClear_encode (i : Instr) : i.opcode.format.reservedClear (encode i) = true := by
  cases i <;>
    simp [Instr.opcode, Opcode.format, Format.reservedClear, arg8Field_encode, rsvField_encode, csraField_encode,
      Instr.arg8, Instr.csra]

/-- The operands of a well-formed command fit their fields (R85, R91). -/
theorem assemble_encode {i : Instr} (hi : i.WellFormed) {wdata : Word} (hw : ∀ a v, i = .csrw a v → v = wdata) :
    i.opcode.assemble (encode i) wdata = i := by
  cases i with
  | start n | actcfg n =>
    have hn : n ≤ 255 := of_decide_eq_true hi
    simp only [Instr.opcode, Opcode.assemble, arg8Field_encode, Instr.arg8, BitVec.toNat_ofNat]
    rw [Nat.mod_eq_of_lt (by omega)]
  | csrr a =>
    have ha : a ≤ 0xFFF := of_decide_eq_true hi
    simp only [Instr.opcode, Opcode.assemble, csraField_encode, Instr.csra, BitVec.toNat_ofNat]
    rw [Nat.mod_eq_of_lt (by omega)]
  | csrw a v =>
    have ha : a ≤ 0xFFF := of_decide_eq_true hi
    simp only [Instr.opcode, Opcode.assemble, csraField_encode, Instr.csra, BitVec.toNat_ofNat]
    rw [Nat.mod_eq_of_lt (by omega), hw a v rfl]
  | _ => rfl

/-- A well-formed command's word decodes to it, whatever `WDATA` is, but that a CSRW carries its own. -/
theorem decode_encode {i : Instr} (hi : i.WellFormed) {wdata : Word} (hw : ∀ a v, i = .csrw a v → v = wdata) :
    decode (encode i) wdata = .instr i := by
  rw [decode_of_code wdata (opcField_encode i), if_pos (reservedClear_encode i), assemble_encode hi hw]

/-- Settles O5: the command's own write data is what its CSRW carries. -/
theorem decodeOfEncode : Obligations.DecodeOfEncode :=
  fun _ hi => decode_encode hi fun _ _ h => h ▸ rfl

/-! ## The assembler forms (R91, R94) -/

/-- The word of a form is a command's encoding once it is the same number. -/
theorem decode_ofNat {i : Instr} (hi : i.WellFormed) {wdata : Word} (hw : ∀ a v, i = .csrw a v → v = wdata)
    {n : Nat} (hn : (encode i).toNat = n) : decode (BitVec.ofNat 32 n) wdata = .instr i := by
  rw [← hn, BitVec.ofNat_toNat, BitVec.setWidth_eq]
  exact decode_encode hi hw

/-- The number of a format A word (R83), from its `OPC` in place. -/
theorem encode_toNat_formatA {i : Instr} {c n : Nat} (op : Opcode) (hop : i.opcode = op)
    (hc : op.code.toNat * 2 ^ 24 = c) (harg8 : i.arg8 = BitVec.ofNat 8 n) (hcsra : i.csra = 0#12) (hn : n ≤ 255) :
    (encode i).toNat = c + n * 2 ^ 16 := by
  rw [encode_toNat, hop, hc, harg8, hcsra, BitVec.toNat_ofNat, BitVec.toNat_ofNat]
  omega

/-- The number of a format C word (R84), from its `OPC` in place. -/
theorem encode_toNat_formatC {i : Instr} {c a : Nat} (op : Opcode) (hop : i.opcode = op)
    (hc : op.code.toNat * 2 ^ 24 = c) (harg8 : i.arg8 = 0#8) (hcsra : i.csra = BitVec.ofNat 12 a) (ha : a ≤ 0xFFF) :
    (encode i).toNat = c + a := by
  rw [encode_toNat, hop, hc, harg8, hcsra, BitVec.toNat_ofNat, BitVec.toNat_ofNat]
  omega

/-- Settles O4: each form is the encoding of its command. -/
theorem assemblerFormsDecode : Obligations.AssemblerFormsDecode := by
  intro w
  have fixed {i : Instr} (hi : i.WellFormed) (hw : ∀ a v, i ≠ .csrw a v) : decode (encode i) w = .instr i :=
    decode_encode hi fun a v h => absurd h (hw a v)
  refine ⟨fixed (i := .nop) rfl nofun, fixed (i := .init) rfl nofun, fixed (i := .stop) rfl nofun,
    fixed (i := .isactive) rfl nofun, fixed (i := .avail) rfl nofun, fixed (i := .space) rfl nofun,
    fixed (i := .get) rfl nofun, fixed (i := .flush) rfl nofun, fun n hn => ?_, fun k hk => ?_, fun a ha => ?_,
    fun a ha => ?_⟩
  · exact decode_ofNat (i := .start n) (decide_eq_true hn) nofun
      (encode_toNat_formatA .start rfl (by decide) rfl rfl hn)
  · exact decode_ofNat (i := .actcfg k) (decide_eq_true hk) nofun
      (encode_toNat_formatA .actcfg rfl (by decide) rfl rfl hk)
  · exact decode_ofNat (i := .csrr a) (decide_eq_true ha) nofun
      (encode_toNat_formatC .csrr rfl (by decide) rfl rfl ha)
  · exact decode_ofNat (i := .csrw a w) (decide_eq_true ha) (fun _ _ h => by cases h; rfl)
      (encode_toNat_formatC .csrw rfl (by decide) rfl rfl ha)

/-- Settles O3: seven closed words. -/
theorem workedEncodingsDecode : Obligations.WorkedEncodingsDecode := by
  unfold Obligations.WorkedEncodingsDecode
  decide

/-! ## Encode of decode -/

/-- The operands a field holds are in range (R85, R91). -/
theorem wellFormed_assemble (op : Opcode) (cmd wdata : Word) : (op.assemble cmd wdata).WellFormed := by
  have ha := (arg8Field cmd).isLt
  have hc := (csraField cmd).isLt
  cases op with
  | start | actcfg => exact decide_eq_true (by omega)
  | csrr | csrw => exact decide_eq_true (by omega)
  | _ => rfl

theorem opcode_assemble (op : Opcode) (cmd wdata : Word) : (op.assemble cmd wdata).opcode = op := by
  cases op <;> rfl

/-- The fields an encoding takes from a command are the word's own: an operand's field holds the operand, and the
format's other fields are 0 (R82 to R84). -/
theorem fields_assemble {op : Opcode} {cmd : Word} (wdata : Word) (h : op.format.reservedClear cmd = true) :
    (op.assemble cmd wdata).arg8 = arg8Field cmd ∧ (op.assemble cmd wdata).csra = csraField cmd ∧
      rsvField cmd = 0 := by
  cases op <;>
    simp only [Opcode.format, Format.reservedClear, Bool.and_eq_true, beq_iff_eq] at h <;>
    simp [Opcode.assemble, Instr.arg8, Instr.csra, h]

theorem encode_assemble {op : Opcode} {cmd : Word} (wdata : Word) (hc : opcField cmd = op.code)
    (hr : op.format.reservedClear cmd = true) : encode (op.assemble cmd wdata) = cmd := by
  obtain ⟨harg8, hcsra, hrsv⟩ := fields_assemble wdata hr
  calc encode (op.assemble cmd wdata)
      = opcField cmd ++ arg8Field cmd ++ rsvField cmd ++ csraField cmd := by
        rw [encode, opcode_assemble, harg8, hcsra, hc, hrsv]
        rfl
    _ = cmd := fields_append cmd

/-- Settles O6: a word that decodes is its opcode, its operands and zeros. -/
theorem encodeOfDecode : Obligations.EncodeOfDecode := by
  intro cmd wdata i h
  have hdata : ∀ a v, i = .csrw a v → v = wdata := fun a v hi => Machine.wdata_of_decode_csrw (hi ▸ h)
  obtain ⟨op, hc, hr, rfl⟩ := decode_eq_instr h
  exact ⟨wellFormed_assemble op cmd wdata, encode_assemble wdata hc hr, hdata⟩

end Sys2Proof
end

section
/-! PROOFS of the statements about 30_encoding.md, second part: the step of a word that is no command (O2). -/

namespace Sys2Proof.Machine
open Sys2Proof.Claims

/-! ## Words that are no command (R88, R89) -/

/-- A word whose `OPC` is no command's (R88). -/
theorem decode_of_unlisted {cmd : Word} (wdata : Word) (h : ∀ op : Opcode, cmd.toNat / 2 ^ 24 ≠ op.code.toNat) :
    decode cmd wdata = .reject .illegalOpcode := by
  cases hop : Opcode.ofCode (opcField cmd) with
  | none => rw [decode, hop]
  | some op => exact absurd (Opcode.code_of_ofCode hop ▸ opcField_toNat cmd).symm (h op)

/-- A word whose `OPC` is a command's of format `f`, with a field that `f` says must be 0 and is not. -/
theorem decode_of_not_reservedClear {cmd : Word} (wdata : Word) {f : Format} (ops : List Opcode)
    (hf : ∀ op ∈ ops, op.format = f) (hc : cmd.toNat / 2 ^ 24 ∈ ops.map (·.code.toNat))
    (hr : ¬ f.reservedClear cmd = true) : decode cmd wdata = .reject .reservedField := by
  obtain ⟨op, hop, hcode⟩ := List.mem_map.mp hc
  have hopc : opcField cmd = op.code := BitVec.eq_of_toNat_eq ((opcField_toNat cmd).trans hcode.symm)
  rw [decode_of_code wdata hopc, hf op hop, if_neg hr]

/-! ## Their step (60_exceptions.md R241) -/

theorem step_of_reject {s : State} {cmd wdata : Word} {rest : List Event} {e : DecodeError}
    (ha : s.agenda = .command cmd wdata :: rest) (hd : decode cmd wdata = .reject e) :
    step s =
      .next (refusedWith (taken s (.command cmd wdata) rest) (causeOfDecode e).code (causeOfDecode e).isConfig) := by
  rw [step, State.nextAction_command ha, State.takeCommand, hd]
  rfl

/-- Settles O2: by the kinds of word, each the decoder's rejection. -/
theorem stepRefusesUndecodableWords : Obligations.StepRefusesUndecodableWords := by
  intro s cmd wdata rest ha
  refine ⟨fun h => ?_, fun h hr => ?_, fun h hr => ?_, fun h hr => ?_⟩
  · refine step_of_reject ha (decode_of_unlisted wdata fun op hop => h (hop ▸ ?_))
    cases op <;> decide
  · exact step_of_reject ha (decode_of_not_reservedClear wdata
      [.nop, .init, .stop, .isactive, .avail, .space, .get, .flush] (by decide) h
      (mt (Format.reservedClear_n cmd).mp hr))
  · exact step_of_reject ha (decode_of_not_reservedClear wdata [.start, .actcfg] (by decide) h
      (mt (Format.reservedClear_a cmd).mp hr))
  · exact step_of_reject ha (decode_of_not_reservedClear wdata [.csrr, .csrw] (by decide) h
      (mt (Format.reservedClear_c cmd).mp hr))

end Sys2Proof.Machine
end

section
/-! PROOFS of the statements about 30_encoding.md, third part: the two kinds of response (O51; R80, 60_exceptions.md
R240 to R243). -/

namespace Sys2Proof.Machine
open Sys2Proof.Claims

/-- The answer of a command that was carried out: it reports no error, and only `STATUS` clears a flag. -/
structure CarriedOut (s t : State) : Prop where
  resp : ∃ r0 r1 r2 r3, t.resp = answers r0 r1 r2 r3
  errCause : t.errCause = s.errCause
  cfgErr : t.cfgErr = true → s.cfgErr = true
  cmdErr : t.cmdErr = true → s.cmdErr = true

/-- The answer of a command that was not carried out, with the error report of its cause (60_exceptions.md R241,
R247). -/
structure NotCarriedOut (c : Cause) (s t : State) : Prop where
  resp : t.resp = notDone
  errCause : t.errCause = c.code
  cfgErr : t.cfgErr = (s.cfgErr || c.isConfig)
  cmdErr : t.cmdErr = (s.cmdErr || !c.isConfig)

/-- The error report stays as it was (60_exceptions.md R242, R243). -/
structure SameReport (s t : State) : Prop where
  errCause : t.errCause = s.errCause
  cfgErr : t.cfgErr = s.cfgErr
  cmdErr : t.cmdErr = s.cmdErr

theorem SameReport.stopSequence (s : State) : SameReport s s.stopSequence := by
  rw [s.stopSequence_spec.1]
  exact ⟨rfl, rfl, rfl⟩

theorem SameReport.beginRun (s : State) (n : Nat) : SameReport s (s.beginRun n) := by
  rw [(s.beginRun_spec n).1]
  exact ⟨rfl, rfl, rfl⟩

theorem SameReport.afterRbGet (s : State) : SameReport s s.afterRbGet := by
  rw [s.afterRbGet_eq]
  exact ⟨rfl, rfl, rfl⟩

theorem CarriedOut.respond {s t : State} {r0 r1 r2 r3 : Word} (h : SameReport s t) :
    CarriedOut s (t.respond r0 r1 r2 r3) :=
  ⟨⟨r0, r1, r2, r3, rfl⟩, h.errCause, h.cfgErr.symm.trans, h.cmdErr.symm.trans⟩

theorem CarriedOut.writeStatus (s : State) (v : Word) : CarriedOut s ((s.writeStatus v).respond 0 0 0 0) :=
  ⟨⟨0, 0, 0, 0, rfl⟩, rfl, fun h => (Bool.and_eq_true_iff.mp h).1, fun h => (Bool.and_eq_true_iff.mp h).1⟩

theorem NotCarriedOut.refuse (s : State) (c : Cause) : NotCarriedOut c s (s.refuse c) := ⟨rfl, rfl, rfl, rfl⟩

theorem NotCarriedOut.failTimer {s t : State} (h : SameReport s t) : NotCarriedOut .timerFail s t.failTimer :=
  ⟨rfl, rfl, congrArg (· || false) h.cfgErr, congrArg (· || true) h.cmdErr⟩

/-- A command is carried out, or reports a cause that is none of the decoder's. -/
theorem Executed.carriedOut_or_not {s t : State} {i : Instr} (h : Executed s i t) :
    CarriedOut s t ∨ ∃ c, (c ≠ .illegalOpcode ∧ c ≠ .reservedField) ∧ NotCarriedOut c s t := by
  cases h with
  | refused i c hc => exact .inr ⟨c, Cause.ne_of_raisedBy hc, .refuse s c⟩
  | initFail => exact .inr ⟨.timerFail, by decide, .failTimer ⟨rfl, rfl, rfl⟩⟩
  | startFail n =>
    obtain ⟨herr, hcfg, hcmd⟩ := SameReport.beginRun s n
    exact .inr ⟨.timerFail, by decide, .failTimer ⟨herr, hcfg, hcmd⟩⟩
  | startDone n =>
    obtain ⟨herr, hcfg, hcmd⟩ := SameReport.beginRun s n
    exact .inl (.respond ⟨herr, hcfg, hcmd⟩)
  | stopped => exact .inl (.respond (.stopSequence s))
  | got => exact .inl (.respond (.afterRbGet s))
  | cleared v => exact .inl (.writeStatus s v)
  | _ => exact .inl (.respond ⟨rfl, rfl, rfl⟩)

/-- The codes a command that decodes can report (60_exceptions.md R242). -/
theorem Cause.code_range {c : Cause} (h : c ≠ .illegalOpcode ∧ c ≠ .reservedField) :
    0x03 ≤ c.code.toNat ∧ c.code.toNat ≤ 0x0F := by
  revert h
  cases c <;> decide

/-- The codes of the configuration-value causes (60_exceptions.md R243). -/
theorem Cause.isConfig_iff_code (c : Cause) :
    c.isConfig = true ↔ c.code = 0x0A ∨ c.code = 0x0B ∨ c.code = 0x0C ∨ c.code = 0x0D := by
  cases c <;> decide

/-- Settles O51: the flag a report sets is the one of its cause's kind, which the code tells. -/
theorem refusalsAndResponses : Obligations.RefusalsAndResponses := by
  intro i s t h
  rcases (exec_cases h).carriedOut_or_not with ⟨hresp, herr, hcfg, hcmd⟩ | ⟨c, hc, hresp, herr, hcfg, hcmd⟩
  · exact .inl ⟨hresp, herr, hcfg, hcmd⟩
  · obtain ⟨hlow, hhigh⟩ := Cause.code_range hc
    rw [herr, hcfg, hcmd, ← c.isConfig_iff_code]
    exact .inr ⟨hresp, hlow, hhigh, fun hk => by simp [hk], fun hk => by simp [hk]⟩

end Sys2Proof.Machine
end

section
/-! PROOFS of the statements about 40_ringbuffer.md, first part: the counts, and puts and gets on the ring (O33 to
O36). -/

namespace Sys2Proof.Machine

/-! ## The counts (R110 to R113) -/

theorem State.available_add_space {s : State} (hr : s.rdPos < s.cfg.capacity) (hw : s.wrPos < s.cfg.capacity) :
    s.available + s.space = s.cfg.capacity - 1 := by
  have hlt := State.available_lt hr hw
  unfold State.space
  omega

theorem State.available_of_indices_eq {s : State} (h : s.rdPos = s.wrPos) : s.available = 0 := by
  simp [State.available, h]

/-- The buffer is empty exactly when the indices agree. -/
theorem State.available_eq_zero_iff {s : State} (hr : s.rdPos < s.cfg.capacity) :
    s.available = 0 ↔ s.rdPos = s.wrPos := by
  refine ⟨fun h => ?_, State.available_of_indices_eq⟩
  unfold State.available at h
  split at h <;> omega

/-- The slot after `WRPOS` is the one at `RDPOS` exactly when one slot, the sacrificed one, is left. -/
theorem State.succ_wrPos_eq_rdPos_iff {s : State} (hr : s.rdPos < s.cfg.capacity) (hw : s.wrPos < s.cfg.capacity) :
    (s.wrPos + 1) % s.cfg.capacity = s.rdPos ↔ s.available = s.cfg.capacity - 1 := by
  unfold State.available
  rcases (show s.wrPos + 1 < s.cfg.capacity ∨ s.wrPos + 1 = s.cfg.capacity by omega) with hn | hn
  · rw [Nat.mod_eq_of_lt hn]
    split <;> omega
  · rw [hn, Nat.mod_self]
    split <;> omega

/-- The buffer is full exactly when the next put would reach `RDPOS`. -/
theorem State.space_eq_zero_iff {s : State} (hr : s.rdPos < s.cfg.capacity) (hw : s.wrPos < s.cfg.capacity) :
    s.space = 0 ↔ (s.wrPos + 1) % s.cfg.capacity = s.rdPos := by
  have hsum := State.available_add_space hr hw
  rw [State.succ_wrPos_eq_rdPos_iff hr hw]
  omega

/-- Settles O33: both counts follow from the distance of the indices. -/
theorem ringCounts : Obligations.RingCounts := by
  intro s hr hw
  have hsum := State.available_add_space hr hw
  exact ⟨hsum, (State.available_eq_zero_iff hr).symm, (State.space_eq_zero_iff hr hw).symm, by omega⟩

/-! ## Puts (R114, R115) -/

/-- Settles O34: what a put writes is its definition, and a store read after a write is `Memory.read_write`. -/
theorem putWritesOneSlot : Obligations.PutWritesOneSlot := by
  intro s rec
  refine ⟨?_, fun k => Memory.read_write k s.wrPos rec s.slots⟩
  have hovf : (s.rbPut rec).ovf = if s.space = 0 then true else s.ovf := by
    by_cases h : s.space = 0 <;> simp [h]
  rw [← hovf]
  rfl

theorem State.unread_eq_nil {s : State} (h : s.available = 0) : s.unread = [] := by
  rw [State.unread, h]
  rfl

/-- Settles O35: the first put makes the indices agree, so the second is a put on an empty buffer. -/
theorem putOnFullBufferLosesUnread : Obligations.PutOnFullBufferLosesUnread := by
  intro s r1 r2 hcap hr hw hfull
  have hspace : s.space = 0 := (State.space_eq_zero_iff hr hw).mpr hfull
  have hwr : (s.rbPut r1).wrPos = s.rdPos := hfull
  have hw1 : (s.rbPut r1).wrPos < (s.rbPut r1).cfg.capacity := hwr ▸ hr
  have havail : (s.rbPut r1).available = 0 := State.available_rbPut_full hr hw hspace r1
  have hnil : (s.rbPut r1).unread = [] := State.unread_eq_nil havail
  have hfree : 0 < (s.rbPut r1).space := by
    have hsum := State.available_add_space (s := s.rbPut r1) hr hw1
    rw [State.rbPut_cfg] at hsum
    omega
  refine ⟨(State.succ_wrPos_eq_rdPos_iff hr hw).mp hfull, by simp [hspace], hwr, havail, hnil,
    Memory.read_write_same .., fun k hk => Memory.read_write_ne hk .., ?_, ?_, ?_⟩
  · rw [State.available_rbPut (s := s.rbPut r1) hr hw1 hfree, havail]
  · rw [← hwr]
    exact Memory.read_write_same ..
  · rw [State.unread_rbPut (s := s.rbPut r1) hr hw1 hfree, hnil]
    rfl

/-! ## Puts and gets (R123) -/

/-- Puts and gets never clear a sticky flag. -/
theorem State.ringRun_sticky (ops : List RingOp) (s : State) :
    (s.ovf = true → (s.ringRun ops).1.ovf = true) ∧ (s.unf = true → (s.ringRun ops).1.unf = true) := by
  induction ops generalizing s with
  | nil => exact ⟨id, id⟩
  | cons op rest ih =>
    cases op with
    | put rec => exact ⟨fun h => (ih (s.rbPut rec)).1 (by simp [h]), (ih (s.rbPut rec)).2⟩
    | get => exact ⟨fun h => (ih s.afterRbGet).1 (by simp [h]), fun h => (ih s.afterRbGet).2 (by simp [h])⟩

theorem State.rbGetRecord_of_read {s : State} {r : SampleRecord} (h : s.slots.read s.rdPos = some r) :
    s.rbGetRecord = r := by
  rw [State.rbGetRecord, h]

/-- With the records `q` unread, a course of puts and gets that sets no flag returns `q` and then the records put, and
leaves the rest unread. -/
theorem State.ringRun_fifo (ops : List RingOp) {s : State} {q : List SampleRecord} (hr : s.rdPos < s.cfg.capacity)
    (hw : s.wrPos < s.cfg.capacity) (hq : s.unread = q.map some)
    (hovf : (s.ringRun ops).1.ovf = false) (hunf : (s.ringRun ops).1.unf = false) :
    (q ++ RingOp.puts ops).map some = (s.ringRun ops).2.map some ++ (s.ringRun ops).1.unread := by
  have hpos : 0 < s.cfg.capacity := by omega
  induction ops generalizing s q with
  | nil => simp [RingOp.puts, State.ringRun, hq]
  | cons op rest ih =>
    cases op with
    | put rec =>
      have hfree : 0 < s.space := Nat.pos_of_ne_zero fun hfull => by
        have hset := (State.ringRun_sticky rest (s.rbPut rec)).1 (by simp [hfull])
        exact absurd (hset.symm.trans hovf) (by decide)
      have hnext := ih (s := s.rbPut rec) (q := q ++ [rec]) hr (Nat.mod_lt _ hpos)
        (by rw [State.unread_rbPut hr hw hfree, hq, List.map_append]; rfl) hovf hunf hpos
      rwa [List.append_assoc] at hnext
    | get =>
      have hsome : 0 < s.available := Nat.pos_of_ne_zero fun hempty => by
        have hset := (State.ringRun_sticky rest s.afterRbGet).2 (by simp [hempty])
        exact absurd (hset.symm.trans hunf) (by decide)
      have htake := State.unread_afterRbGet hr hw hsome
      rw [hq] at htake
      obtain ⟨x, q', rfl, hx, hq'⟩ := List.map_eq_cons_iff.mp htake
      have hnext := ih (s := s.afterRbGet) (q := q') (by simpa using Nat.mod_lt _ hpos) (by simpa using hw) hq'.symm
        hovf hunf (by simpa using hpos)
      simpa [RingOp.puts, State.ringRun, State.rbGetRecord_of_read hx.symm] using hnext

/-- Settles O36: the course starts with nothing unread. -/
theorem putsAndGetsAreFifo : Obligations.PutsAndGetsAreFifo := by
  intro s ops hr hw _ _ hovf hunf
  have hnil : s.unread = [] := State.unread_eq_nil (State.available_of_indices_eq hw.symm)
  exact State.ringRun_fifo ops (q := []) hr (hw ▸ hr) hnil hovf hunf

end Sys2Proof.Machine
end

section
/-! PROOFS of the statements about 40_ringbuffer.md, second part: the consumer's commands (O18 to O23), and the ring
as a queue at every step of the block (O37). -/

namespace Sys2Proof.Machine
open Sys2Proof.Claims

/-! ## AVAIL, SPACE and FLUSH (R118, R119, R121) -/

/-- Settles O18: both counts are below `2 ^ 32`, so the response word holds them. -/
theorem availAndSpaceAnswerCounts : Obligations.AvailAndSpaceAnswerCounts := by
  intro s hcap hr hw
  have hlt := State.available_lt hr hw
  have hsum := State.available_add_space hr hw
  have ha : (BitVec.ofNat 32 s.available).toNat = s.available := Nat.mod_eq_of_lt (by omega)
  have hp : (BitVec.ofNat 32 s.space).toNat = s.space := Nat.mod_eq_of_lt (by omega)
  refine ⟨BitVec.ofNat 32 s.available, BitVec.ofNat 32 s.space, rfl, rfl, ?_, ?_, ?_⟩
  · exact ha
  · rw [ha, hp, State.space]
  · rw [ha, hp, hsum]

/-- Settles O23: the indices agree after a FLUSH. -/
theorem flushDiscardsUnreadRecords : Obligations.FlushDiscardsUnreadRecords := by
  intro s
  have hempty : (({ s with rdPos := s.wrPos } : State).respond 0 0 0 0).available = 0 :=
    State.available_of_indices_eq rfl
  exact ⟨_, rfl, rfl, hempty, State.unread_eq_nil hempty⟩

/-! ## GET (R116, R117, R120) -/

/-- Everything a GET does, but for the record it answers and its draw. -/
theorem exec_get {s : State} (hr : s.rdPos < s.cfg.capacity) :
    exec .get s = .next { s with
      unf := s.unf || decide (s.rdPos = s.wrPos)
      rdPos := (s.rdPos + 1) % s.cfg.capacity
      env := s.afterRbGet.env
      resp := answers s.rbGetRecord.pinWord s.rbGetRecord.timestamp s.rbGetRecord.count s.rbGetRecord.sum } := by
  have hexec : exec .get s = .next (s.afterRbGet.respond s.rbGetRecord.pinWord s.rbGetRecord.timestamp
    s.rbGetRecord.count s.rbGetRecord.sum) := rfl
  have hunf : (s.available == 0) = decide (s.rdPos = s.wrPos) :=
    decide_eq_decide.mpr (State.available_eq_zero_iff hr)
  rw [hexec, s.afterRbGet_eq, hunf]
  rfl

/-- A get of a written slot draws nothing. -/
theorem State.env_afterRbGet_of_read {s : State} {r : SampleRecord} (h : s.slots.read s.rdPos = some r) :
    s.afterRbGet.env = s.env := by
  rw [State.afterRbGet, State.rbGetDraw, h]
  rfl

/-- A get of a never-written slot draws the next 128 bits listed, and they are its record. -/
theorem State.afterRbGet_of_listed {s : State} {b : BitVec 128} {rest : List (BitVec 128)}
    (h : s.slots.read s.rdPos = none) (he : s.env.emptySlot = b :: rest) :
    s.rbGetRecord = SampleRecord.ofBits b ∧
      s.afterRbGet.env = { s.env with emptySlot := rest, history := .emptySlot b :: s.env.history } := by
  have hanswer : s.rbGetCheck.emptySlotAnswer = b := by simp [State.emptySlotAnswer, he]
  constructor
  · rw [State.rbGetRecord, h, hanswer]
  · rw [State.afterRbGet, State.rbGetDraw, h]
    simp [hanswer, he]

/-- Settles O19: the indices differ, so `UNF` stays, and the slot was written, so nothing is drawn. -/
theorem getAnswersOldestRecord : Obligations.GetAnswersOldestRecord := by
  intro s r hr _ hne hread
  rw [exec_get hr, State.rbGetRecord_of_read hread, State.env_afterRbGet_of_read hread, decide_eq_false hne,
    Bool.or_false]

/-- Settles O21: the draw is the next answer listed. -/
theorem getOfUnwrittenSlotAnswersDraw : Obligations.GetOfUnwrittenSlotAnswersDraw := by
  intro s b rest hr _ hread hlist
  obtain ⟨hrec, henv⟩ := State.afterRbGet_of_listed hread hlist
  rw [exec_get hr, hrec, henv]
  rfl

/-- Settles O22: GET's effect names no slot, and only a never-written slot is drawn. -/
theorem getFrame : Obligations.GetFrame := by
  intro s hr _
  refine ⟨_, s.rbGetRecord.pinWord, s.rbGetRecord.timestamp, s.rbGetRecord.count, s.rbGetRecord.sum, exec_get hr, ?_,
    fun _ => rfl, fun hread => ?_⟩
  · by_cases h : s.rdPos = s.wrPos <;> simp [h]
  · obtain ⟨r, hread⟩ := Option.ne_none_iff_exists'.mp hread
    exact State.env_afterRbGet_of_read hread

/-- After a get on an empty buffer the queue is every slot but the one at `WRPOS`, in index order (R117). -/
theorem State.unread_afterRbGet_empty {s : State} (hr : s.rdPos < s.cfg.capacity) (hw : s.wrPos = s.rdPos) :
    s.afterRbGet.unread = (List.range (s.cfg.capacity - 1)).map
      (fun k => s.slots.read ((s.wrPos + 1 + k) % s.cfg.capacity)) := by
  have hempty : s.available = 0 := State.available_of_indices_eq hw.symm
  rw [State.unread, State.available_afterRbGet_empty hr (hw ▸ hr) hempty]
  simp [hw, Nat.mod_add_mod]

/-- Settles O20: GET moves `RDPOS` past `WRPOS`, so that the distance of the indices is `CAPACITY - 1`. -/
theorem getOnEmptyBufferReadsAsFull : Obligations.GetOnEmptyBufferReadsAsFull := by
  intro s hr hw
  have hempty : s.available = 0 := State.available_of_indices_eq hw.symm
  have havail := State.available_afterRbGet_empty hr (hw ▸ hr) hempty
  have hspace : s.afterRbGet.space = 0 := by
    rw [State.space, havail, State.afterRbGet_cfg, Nat.sub_self]
  refine ⟨_, rfl, (Host.Outcome.next.inj (exec_get hr)).trans ?_, havail, hspace, fun rec => ?_,
    State.unread_afterRbGet_empty hr hw, fun r hread => ?_, fun b rest hread hlist => ?_⟩
  · simp [hw, answers]
  · have hfull : (s.afterRbGet.space == 0) = true := beq_iff_eq.mpr hspace
    exact (congrArg _ hfull).trans (Bool.or_true _)
  · rw [hw] at hread
    rw [State.respond_resp, State.rbGetRecord_of_read hread]
    exact ⟨rfl, State.env_afterRbGet_of_read hread⟩
  · rw [hw] at hread
    rw [State.respond_resp, (State.afterRbGet_of_listed hread hlist).1]
    rfl

/-! ## The ring at every step (R67, R114, R116, R121, R122) -/

/-- No command but GET and FLUSH touches the queue. -/
theorem Executed.unread_eq {s t : State} {i : Instr} (h : Executed s i t) (hget : i ≠ .get) (hflush : i ≠ .flush) :
    t.unread = s.unread := by
  have hrd : t.rdPos = s.rdPos := by
    by_contra hne
    exact (h.host_writes.1 hne).elim hget hflush
  exact State.unread_of_ring hrd h.frame.wrPos h.frame.cfg h.frame.slots

/-- Puts within the free slots append to the queue, whatever else changes. -/
theorem RingPuts.unread {s t : State} {recs : List SampleRecord} (h : RingPuts s t recs)
    (hr : s.rdPos < s.cfg.capacity) (hw : s.wrPos < s.cfg.capacity) (hs : recs.length ≤ s.space) :
    t.unread = s.unread ++ recs.map some := by
  obtain ⟨hslots, hwr, -, hrd, hcfg⟩ := h
  rw [← State.unread_rbPuts recs hr hw hs]
  exact State.unread_of_ring (hrd.trans (State.rbPuts_rdPos ..).symm) hwr (hcfg.trans (State.rbPuts_cfg ..).symm) hslots

/-- A tick within the free slots appends as many records as it puts. -/
theorem State.unread_tick {s : State} (hs : s.Shape) (hp : s.tickPuts ≤ s.space) :
    ∃ recs : List SampleRecord, recs.length = s.tickPuts ∧ s.tick.unread = s.unread ++ recs.map some := by
  obtain ⟨recs, hring, hlen⟩ := RingPuts.tick (s := s) (hs.acts_length ▸ hs.actn_le)
  exact ⟨recs, hlen, hring.unread hs.rdPos_lt hs.wrPos_lt (hlen ▸ hp)⟩

theorem State.unread_afterReset (cfg : Params) (agenda : List Event) (env : Env) :
    (State.afterReset cfg agenda env).unread = [] := State.unread_eq_nil rfl

/-- A GET that is the next command takes the head of the queue and answers it. -/
theorem step_get_unread {s t : State} (hs : s.Shape) (h : step s = .next t) {cmd wdata : Word} {rest : List Event}
    (ha : s.agenda = .command cmd wdata :: rest) (hd : decode cmd wdata = .instr .get) (hsome : 0 < s.available) :
    ∃ x, s.unread = x :: t.unread ∧ ∀ r, x = some r → t.resp = answers r.pinWord r.timestamp r.count r.sum := by
  rw [stepRunsDecodedCommand s cmd wdata rest .get ha hd] at h
  cases h
  refine ⟨_, State.unread_afterRbGet (s := taken s _ rest) hs.rdPos_lt hs.wrPos_lt hsome, fun r hread => ?_⟩
  rw [State.respond_resp, State.rbGetRecord_of_read hread]
  rfl

theorem step_flush_unread {s t : State} (h : step s = .next t) {cmd wdata : Word} {rest : List Event}
    (ha : s.agenda = .command cmd wdata :: rest) (hd : decode cmd wdata = .instr .flush) : t.unread = [] := by
  rw [stepRunsDecodedCommand s cmd wdata rest .flush ha hd] at h
  cases h
  exact State.unread_eq_nil (State.available_of_indices_eq rfl)

/-- Any other command word, a word that is no command among them, leaves the queue. -/
theorem step_command_unread {s t : State} (h : step s = .next t) {cmd wdata : Word} {rest : List Event}
    (ha : s.agenda = .command cmd wdata :: rest) (hget : decode cmd wdata ≠ .instr .get)
    (hflush : decode cmd wdata ≠ .instr .flush) : t.unread = s.unread := by
  cases hd : decode cmd wdata with
  | reject e =>
    rw [step_of_reject ha hd] at h
    cases h
    rfl
  | instr i =>
    rw [stepRunsDecodedCommand s cmd wdata rest i ha hd] at h
    exact (exec_cases h).unread_eq (fun hi => hget (hi ▸ hd)) (fun hi => hflush (hi ▸ hd))

/-- A step with neither a command nor a reset next is a tick if `RUN = 1`, and otherwise drops a tick (log 4). -/
theorem step_tick_cases {s t : State} (h : step s = .next t)
    (ha : s.agenda = [] ∨ ∃ rest, s.agenda = .tick :: rest) :
    (s.run = true ∧ ∃ rest, t = (s.took .tick rest).tick) ∨
      (s.run = false ∧ ∃ rest, t = { s with agenda := rest }) := by
  cases step_cases h with
  | command cmd wdata rest i t hc | rejected cmd wdata rest e hc | reset rest hc => simp [hc] at ha
  | ticked rest _ hr => exact .inl ⟨hr, rest, rfl⟩
  | dropped rest _ hr => exact .inr ⟨hr, rest, rfl⟩

theorem step_reset {s t : State} (h : step s = .next t) {rest : List Event} (ha : s.agenda = .reset :: rest) :
    ∃ agenda env, t = State.afterReset s.cfg agenda env := by
  cases step_cases h with
  | command cmd wdata rest i t hc | rejected cmd wdata rest e hc | dropped rest hc => simp [hc] at ha
  | ticked rest hc => rcases hc with ⟨hc, -⟩ | hc <;> simp [hc] at ha
  | reset rest => exact ⟨_, _, rfl⟩

/-- Settles O37: the queue after a step, by the event the step takes. -/
theorem stepsKeepQueueDiscipline : Obligations.StepsKeepQueueDiscipline := by
  intro s t hs h
  refine ⟨fun cmd wdata rest ha => ⟨step_get_unread hs h ha, step_flush_unread h ha, step_command_unread h ha⟩,
    fun rest ha => ?_, fun ha => ?_⟩
  · obtain ⟨agenda, env, rfl⟩ := step_reset h ha
    exact State.unread_afterReset ..
  · rcases step_tick_cases h ha with ⟨hrun, rest, rfl⟩ | ⟨hrun, rest, rfl⟩
    · exact ⟨fun _ hp => State.unread_tick (State.shape_took hs .tick rest) hp, fun hoff => by simp [hrun] at hoff⟩
    · exact ⟨fun hon => by simp [hrun] at hon, fun _ => rfl⟩

end Sys2Proof.Machine
end

section
/-! PROOFS of the statements about 41_periodic_task.md, first part: one `TaskStep` and one whole update of a slot (O38,
O39, O43). -/

namespace Sys2Proof.Machine

/-! ## The slot after `TaskStep` (R144 to R147) -/

/-- Before the offset a task holds its state (R144). -/
theorem Activity.afterStep_of_lt {a : Activity} {now : Word} (h : now.toNat < a.offset.toNat) :
    a.afterStep now = a := if_pos h

/-- At the start of a period the window opens unless it is empty (R146, R147). -/
theorem Activity.ison_afterStep_of_start {a : Activity} {now : Word} (hle : a.offset.toNat ≤ now.toNat)
    (he : a.elapsed now = 0) : (a.afterStep now).ison = decide (0 < a.duration.toNat) := by
  rw [Activity.afterStep, if_neg (Nat.not_lt.mpr hle), if_pos he]

/-- Within a period a window may only end (R145). -/
theorem Activity.ison_afterStep_within {a : Activity} {now : Word} (hle : a.offset.toNat ≤ now.toNat)
    (he : a.elapsed now ≠ 0) :
    (a.afterStep now).ison = (a.ison && decide (a.elapsed now < a.duration.toNat)) := by
  rw [Activity.afterStep, if_neg (Nat.not_lt.mpr hle), if_neg he]

theorem State.taskStep_of_lt {s : State} {i : Nat} {now : Word} (h : now.toNat < (s.act i).offset.toNat) :
    s.taskStep i now = s := if_pos h

theorem State.taskStep_of_le {s : State} {i : Nat} {now : Word} (h : (s.act i).offset.toNat ≤ now.toNat) :
    s.taskStep i now = s.transitions i ((s.act i).elapsed now) (s.act i).duration.toNat :=
  if_neg (Nat.not_lt.mpr h)

/-- Settles O38, by the three cases of `afterStep`. -/
theorem taskStepTransitions : Obligations.TaskStepTransitions := by
  intro s i now hi
  rw [State.act_taskStep s i now hi]
  refine ⟨State.taskStep_of_lt, fun hle he => ?_, fun hle he => ?_⟩
  · rw [Activity.ison_afterStep_of_start hle he, decide_eq_true_iff, Nat.pos_iff_ne_zero]
  · rw [Activity.ison_afterStep_within hle he, Bool.and_eq_true, decide_eq_true_iff, Activity.elapsed]

/-! ## The callbacks of `TaskStep` (R148) -/

theorem State.ison_closeWindow {s : State} {i : Nat} (hi : i < s.acts.length) :
    ((s.closeWindow i).act i).ison = false := by rw [State.act_closeWindow s i hi]

theorem State.ison_openWindow {s : State} {i : Nat} (hi : i < s.acts.length) :
    ((s.openWindow i).act i).ison = true := by
  rw [State.openWindow_eq s i hi, State.act_setAct_same _ hi, Activity.opened_ison]

/-- A task that has just opened stays open unless its window is empty. -/
theorem State.closeEmpty_openWindow {s : State} {i : Nat} (hi : i < s.acts.length) (d : Nat) :
    (s.openWindow i).closeEmpty i 0 d =
      if d = 0 then (s.openWindow i).closeWindow i else s.openWindow i := by
  simp [State.closeEmpty, State.ison_openWindow hi]

/-- The start of a period finds a task `OFF`: no window to close. -/
theorem State.transitions_start_of_off {s : State} {i : Nat} (hi : i < s.acts.length) (hoff : (s.act i).ison = false)
    (d : Nat) : s.transitions i 0 d =
      if d = 0 then (s.openWindow i).closeWindow i else s.openWindow i := by
  have hclose : s.closeEnded i 0 d = s := if_neg (by simp [hoff])
  have hopen : s.openNew i 0 = s.openWindow i := if_pos ⟨hoff, rfl⟩
  rw [State.transitions, hclose, hopen, State.closeEmpty_openWindow hi]

/-- The start of a period finds a task `ON`: its window closes, whatever its length, before the next opens. -/
theorem State.transitions_start_of_on {s : State} {i : Nat} (hi : i < s.acts.length) (hon : (s.act i).ison = true)
    (d : Nat) : s.transitions i 0 d =
      if d = 0 then ((s.closeWindow i).openWindow i).closeWindow i else (s.closeWindow i).openWindow i := by
  have hclose : s.closeEnded i 0 d = s.closeWindow i := if_pos ⟨hon, .inr rfl⟩
  have hopen : (s.closeWindow i).openNew i 0 = (s.closeWindow i).openWindow i :=
    if_pos ⟨State.ison_closeWindow hi, rfl⟩
  have hlen : i < (s.closeWindow i).acts.length := by rwa [(TickFrame.closeWindow s i).acts_length]
  rw [State.transitions, hclose, hopen, State.closeEmpty_openWindow hlen]

/-- Within a period step (1) is all: step (2) does not apply, and step (3) finds a window that has ended closed. -/
theorem State.transitions_within {s : State} {i e : Nat} (hi : i < s.acts.length) (he : e ≠ 0) (d : Nat) :
    s.transitions i e d = if (s.act i).ison = true ∧ d ≤ e then s.closeWindow i else s := by
  have hopen : (s.closeEnded i e d).openNew i e = s.closeEnded i e d := if_neg fun h => he h.2
  rw [State.transitions, hopen]
  by_cases hended : (s.act i).ison = true ∧ d ≤ e
  · have hclose : s.closeEnded i e d = s.closeWindow i := if_pos ⟨hended.1, .inl hended.2⟩
    rw [if_pos hended, hclose]
    exact if_neg (by simp [State.ison_closeWindow hi])
  · have hclose : s.closeEnded i e d = s := if_neg fun h => hended ⟨h.1, h.2.resolve_right he⟩
    rw [if_neg hended, hclose]
    exact if_neg hended

/-- Settles O39, by whether `now` is before the offset, at the start of a period or within one. -/
theorem taskStepCallbackSequences : Obligations.TaskStepCallbackSequences := by
  intro s i now hi
  rcases Nat.lt_or_ge now.toNat (s.act i).offset.toNat with hlt | hle
  · exact .inl ⟨State.taskStep_of_lt hlt, .inl hlt⟩
  rw [State.taskStep_of_le hle]
  by_cases he : (s.act i).elapsed now = 0
  · refine .inr ⟨hle, ?_⟩
    rw [he]
    cases hison : (s.act i).ison with
    | false =>
      rw [State.transitions_start_of_off hi hison]
      by_cases hd : (s.act i).duration.toNat = 0 <;> simp [hd]
    | true =>
      rw [State.transitions_start_of_on hi hison]
      by_cases hd : (s.act i).duration.toNat = 0 <;> simp [hd]
  · rw [State.transitions_within hi he]
    by_cases hended : (s.act i).ison = true ∧ (s.act i).duration.toNat ≤ (s.act i).elapsed now
    · exact .inr ⟨hle, .inl ⟨if_pos hended, hended.1, he, hended.2⟩⟩
    · exact .inl ⟨if_neg hended, .inr ⟨he, fun hon => Nat.lt_of_not_le fun h => hended ⟨hon, h⟩⟩⟩

/-! ## A whole update (R149) -/

theorem State.rbPuts_env (s : State) (recs : List SampleRecord) : (s.rbPuts recs).env = s.env := by
  induction recs generalizing s with
  | nil => rfl
  | cons r rest ih => rw [State.rbPuts_cons, ih]; rfl

/-- `TaskStep` draws nothing: all it does is put records and write its slot. -/
theorem State.taskStep_env {s : State} {i : Nat} (hi : i < s.acts.length) (now : Word) :
    (s.taskStep i now).env = s.env := by
  rw [State.taskStep_eq s i now hi, State.setAct_env, State.rbPuts_env]

theorem State.smp_taskStep (s : State) (i : Nat) (now : Word) :
    ((s.taskStep i now).act i).smp = (s.act i).smp := by rw [(TickFrame.taskStep s i now).act i]

/-- The transitions of a TASK write its `ISON` alone (42_sampler.md R171). -/
theorem Activity.afterStep_of_task {a : Activity} (h : a.smp = false) (now : Word) :
    a.afterStep now = { a with ison := (a.afterStep now).ison } := by
  have hopened : a.opened = { a with ison := true } := if_neg (by simp [h])
  rw [Activity.afterStep, hopened]
  split
  · rfl
  · split <;> rfl

theorem State.taskStep_of_task {s : State} {i : Nat} (hi : i < s.acts.length) (h : (s.act i).smp = false)
    (now : Word) :
    s.taskStep i now = s.setAct i { s.act i with ison := ((s.act i).afterStep now).ison } := by
  have hputs : (s.act i).stepPuts now = [] := if_pos (.inr h)
  rw [State.taskStep_eq s i now hi, hputs, State.rbPuts_nil, ← Activity.afterStep_of_task h]

/-- Settles O43: `ActUpdate` samples what `TaskStep` leaves `ON`, and `TaskStep` keeps a slot's kind. -/
theorem updateSwitchesThenSamples : Obligations.UpdateSwitchesThenSamples := by
  intro s i now hi
  have hkind := State.smp_taskStep s i now
  refine ⟨State.taskStep_env hi now, fun htask => ?_, fun hsampler => ⟨fun hoff => ?_, fun hon => ?_⟩⟩
  · have hupdate : s.actUpdate i now = s.taskStep i now := if_neg (by simp [hkind, htask])
    exact ⟨hupdate, _, hupdate.trans (State.taskStep_of_task hi htask now)⟩
  · exact if_neg (by simp [hoff])
  · exact if_pos ⟨hkind.trans hsampler, hon⟩

end Sys2Proof.Machine
end

section
/-! PROOFS of the statements about 41_periodic_task.md, second part: a task over the ticks that follow START, and the
wrap of the clock (O44, O45, O47). -/

namespace Sys2Proof.Machine
open Sys2Proof.Claims

/-! ## START (R141, 43_dispatcher.md R186) -/

/-- Everything a START that is carried out does. -/
theorem exec_start_accepted {s t : State} {n : Nat} (h : exec (.start n) s = .next t)
    (hresp : t.resp = answers 0 0 0 0) :
    n ≤ s.cfg.nAct ∧ t.clock = 0 ∧ t.actn = n ∧ t.acts.length = s.acts.length ∧
      ∀ i, i < n → (s.act i).conf = true ∧ t.act i = (s.act i).afterStart := by
  obtain ⟨hfields, hlen, hact⟩ := s.beginRun_spec n
  cases exec_cases h with
  | startDone n _ _ hn hconf =>
    refine ⟨hn, rfl, ?_, hlen, fun i hi => ⟨hconf i hi, (hact i).trans (if_pos hi)⟩⟩
    show (s.beginRun n).actn = n
    rw [hfields]
  | startFail | refused => exact nomatch hresp
  | responded _ _ hc => simp at hc

/-- START writes none of the fields that the phase of a task is computed from. -/
theorem Activity.afterStart_schedule (a : Activity) :
    a.afterStart.ison = false ∧ a.afterStart.offset = a.offset ∧ a.afterStart.period = a.period ∧
      a.afterStart.duration = a.duration := by
  unfold Activity.afterStart
  split <;> exact ⟨rfl, rfl, rfl, rfl⟩

/-- A task that START leaves is in phase at 0: it is `OFF`, and with `OFFSET = 0` too no window opens before `PERIOD`
(70_reset_and_hazards.md R278). -/
theorem Activity.inPhase_afterStart {a : Activity} (hv : a.Valid) : a.afterStart.InPhase 0 := by
  obtain ⟨hison, hoff, hper, -⟩ := a.afterStart_schedule
  have hpos := hv.period_pos
  unfold Activity.InPhase
  rw [hison, hoff, hper]
  constructor
  · exact fun h => nomatch h
  · rintro ⟨hle, -, hopened⟩
    omega

theorem Activity.valid_afterStart {a : Activity} (hv : a.Valid) : a.afterStart.Valid := by
  unfold Activity.afterStart
  split
  · exact hv.runTime
  · exact hv.runTime

/-! ## Ticks (R150, 43_dispatcher.md R181) -/

/-- What a tick leaves of a slot of the set, as far as its phase goes, is what one `TaskStep` leaves. -/
theorem State.ison_tick {s : State} {i : Nat} (hn : s.actn ≤ s.acts.length) (hi : i < s.actn) :
    (s.tick.act i).ison = ((s.act i).afterStep (s.clock + 1)).ison := by
  obtain ⟨u, hframe, hact, -, htick⟩ := (s.act_tick i).2 hi
  have hlen : i < u.acts.length := by rw [hframe.acts_length]; omega
  rw [htick, State.ison_actUpdate u i _ hlen, hact]

/-- A tick without a wrap keeps a configured task of the set in phase. -/
theorem State.inPhase_tick {s : State} {i : Nat} (hn : s.actn ≤ s.acts.length) (hi : i < s.actn)
    (hv : (s.act i).Valid) (hwrap : s.clock.toNat + 1 < 2 ^ 32) (h : (s.act i).InPhase s.clock.toNat) :
    (s.tick.act i).InPhase (s.clock.toNat + 1) := by
  have hstep := Activity.ison_afterStep_of_inPhase hv (clock_succ s.clock hwrap) h
  rw [← State.ison_tick hn hi] at hstep
  unfold Activity.InPhase
  rw [hstep, (TickFrame.tick s).act i]

theorem State.tick_clock_toNat {s : State} (hwrap : s.clock.toNat + 1 < 2 ^ 32) :
    s.tick.clock.toNat = s.clock.toNat + 1 := by rw [State.tick_clock, clock_succ _ hwrap]

/-- Settles O44: START leaves its tasks in phase at 0, and a tick is one update of each. -/
theorem windowsFollowPeriods : Obligations.WindowsFollowPeriods := by
  refine ⟨fun s t n i _ hconf h hresp hi => ?_, fun s i hn hi hv hwrap h => ?_⟩
  · obtain ⟨-, hclock, -, -, hacts⟩ := exec_start_accepted h hresp
    obtain ⟨hc, hact⟩ := hacts i hi
    rw [hclock, hact]
    exact Activity.inPhase_afterStart (hconf i hc)
  · have hclock := State.tick_clock_toNat hwrap
    exact ⟨hclock, hclock ▸ State.inPhase_tick hn hi hv hwrap h⟩

/-! ## Many ticks (R150) -/

theorem TickFrame.iterate_tick (s : State) (k : Nat) : TickFrame s (State.tick^[k] s) := by
  induction k with
  | zero => exact TickFrame.refl s
  | succ k ih =>
    rw [Function.iterate_succ_apply']
    exact ih.trans (TickFrame.tick _)

/-- The offset, period and duration of a slot are out of a tick's reach. -/
theorem TickFrame.valid {s t : State} (h : TickFrame s t) {i : Nat} (hv : (s.act i).Valid) : (t.act i).Valid := by
  rw [h.act i]
  exact hv.runTime

/-- From a state at `CLOCK = 0` with a configured task of the set in phase, `k` ticks lead to `CLOCK = k` with the task
in phase, as long as the clock does not wrap. -/
theorem State.inPhase_iterate_tick {s : State} {i : Nat} (hn : s.actn ≤ s.acts.length) (hi : i < s.actn)
    (hv : (s.act i).Valid) (hclock : s.clock = 0) (h : (s.act i).InPhase 0) (k : Nat) (hk : k < 2 ^ 32) :
    (State.tick^[k] s).clock.toNat = k ∧ ((State.tick^[k] s).act i).InPhase k := by
  induction k with
  | zero => exact ⟨by rw [Function.iterate_zero_apply, hclock]; rfl, h⟩
  | succ k ih =>
    obtain ⟨hc, hphase⟩ := ih (by omega)
    have hframe := TickFrame.iterate_tick s k
    have hn' : (State.tick^[k] s).actn ≤ (State.tick^[k] s).acts.length := by rwa [hframe.actn, hframe.acts_length]
    have hi' : i < (State.tick^[k] s).actn := by rwa [hframe.actn]
    have hwrap : (State.tick^[k] s).clock.toNat + 1 < 2 ^ 32 := by rwa [hc]
    have hnext := State.inPhase_tick hn' hi' (hframe.valid hv) hwrap (by rwa [hc])
    rw [Function.iterate_succ_apply']
    rw [hc] at hnext
    exact ⟨by rw [State.tick_clock_toNat hwrap, hc], hnext⟩

/-- Settles O45: the phase at `CLOCK = k`, read with the schedule that START and the ticks keep. -/
theorem onExactlyInsideWindows : Obligations.OnExactlyInsideWindows := by
  intro s t n hs hconf h hresp k hk i hi
  obtain ⟨hn, hclock, hactn, hlen, hacts⟩ := exec_start_accepted h hresp
  obtain ⟨hc, hact⟩ := hacts i hi
  have hv := hconf i hc
  have hset : t.actn ≤ t.acts.length := by rw [hactn, hlen, hs.acts_length]; exact hn
  obtain ⟨hck, hphase⟩ := State.inPhase_iterate_tick hset (hactn ▸ hi) (hact ▸ Activity.valid_afterStart hv) hclock
    (hact ▸ Activity.inPhase_afterStart hv) k hk
  obtain ⟨-, hoff, hper, hdur⟩ := (s.act i).afterStart_schedule
  have hkept := (TickFrame.iterate_tick t k).act i
  rw [hact] at hkept
  refine ⟨hck, hphase.trans ?_⟩
  rw [hkept, hoff, hper, hdur]

/-! ## The wrap of the clock (R151, 43_dispatcher.md R184) -/

theorem Activity.elapsed_offset (a : Activity) : a.elapsed a.offset = 0 := by
  rw [Activity.elapsed, Nat.sub_self, Nat.zero_mod]

/-- Settles O47: after the wrap `now` is 0, before any later offset, and the offset is the start of a period. -/
theorem clockWrapHoldsWindows : Obligations.ClockWrapHoldsWindows := by
  intro s i hn hi
  have hwrap : (0xFFFFFFFF : Word) + 1 = 0 := by decide
  refine ⟨fun hclock => ?_, fun hclock hoff => ?_, fun hon hd => ?_⟩
  · rw [State.tick_clock, hclock, hwrap]
  · have hbefore : (0 : Word).toNat < (s.act i).offset.toNat := hoff
    rw [State.ison_tick hn hi, hclock, hwrap, Activity.afterStep_of_lt hbefore]
  · rw [State.taskStep_of_le (Nat.le_refl _), Activity.elapsed_offset,
      State.transitions_start_of_on (by omega) hon, if_neg (by omega)]

end Sys2Proof.Machine
end

section
/-! PROOFS of the statements about 42_sampler.md: the open and the close of a window, one sample, the record of a whole
window, and the values the draws can take (O40 to O42, O46, O60). -/

namespace Sys2Proof.Machine

/-! ## The open and the close of a window (R161, R164, R171) -/

/-- Settles O41: an open writes the slot that `OnCallback` leaves, by the slot's kind. -/
theorem openWindowClearsAccumulators : Obligations.OpenWindowClearsAccumulators := by
  intro s i hi
  rw [State.openWindow_eq s i hi]
  exact ⟨fun hsampler => congrArg (s.setAct i) (if_pos hsampler),
    fun htask => congrArg (s.setAct i) (if_neg (by simp [htask]))⟩

theorem State.closeWindow_of_task {s : State} {i : Nat} (hi : i < s.acts.length) (h : (s.act i).smp = false) :
    s.closeWindow i = s.setAct i { s.act i with ison := false } := by
  rw [State.closeWindow_eq s i hi, if_neg (by simp [h]), State.rbPuts_nil]

theorem State.closeWindow_of_sampler {s : State} {i : Nat} (hi : i < s.acts.length) (h : (s.act i).smp = true) :
    s.closeWindow i = (s.rbPut (s.act i).record).setAct i { s.act i with ison := false } := by
  rw [State.closeWindow_eq s i hi, if_pos h, State.rbPuts_cons, State.rbPuts_nil]

/-- The record of a window in the words of the statements: its pin word is the number of `OPIN` (20_memory.md R61). -/
theorem Activity.record_eq (a : Activity) :
    a.record = { pinWord := BitVec.ofNat 32 a.opin.toNat, timestamp := a.ts, count := a.cnt, sum := a.sum } := by
  rw [BitVec.ofNat_toNat, Activity.record]

/-- Settles O40: the close of a SAMPLER's window is one put, and what a put writes is `PutWritesOneSlot`. -/
theorem closeWindowPutsRecord : Obligations.CloseWindowPutsRecord := by
  intro s i hi
  refine ⟨State.closeWindow_of_task hi, fun hsampler => ?_⟩
  obtain ⟨hput, hread⟩ := putWritesOneSlot s (s.act i).record
  rw [State.closeWindow_of_sampler hi hsampler, ← Activity.record_eq]
  exact ⟨congrArg (fun t => t.setAct i { s.act i with ison := false }) hput, hread⟩

/-! ## Draws (R166, R167, 00_scope.md R7) -/

/-- A reading has `ADC_WIDTH` bits. -/
theorem State.adcAnswer_lt (s : State) (i : Nat) : (s.adcAnswer i).toNat < 2 ^ s.cfg.adcWidth := by
  rw [State.adcAnswer, BitVec.toNat_ofNat]
  exact (Nat.mod_le _ _).trans_lt (Nat.mod_lt _ (Nat.two_pow_pos _))

/-- A reading that is listed is the low `ADC_WIDTH` bits of its answer (log 11). -/
theorem State.adcAnswer_of_listed {s : State} {v : Word} {rest : List Word} (h : s.env.adc = v :: rest) (i : Nat) :
    (s.adcAnswer i).toNat = v.toNat % 2 ^ s.cfg.adcWidth := by
  rw [State.adcAnswer, h, BitVec.toNat_ofNat]
  exact Nat.mod_eq_of_lt ((Nat.mod_le _ _).trans_lt v.isLt)

theorem State.absTimeAnswer_of_listed {s : State} {v : Word} {rest : List Word} (h : s.env.absTime = v :: rest)
    (i : Nat) : s.absTimeAnswer i = v := by
  rw [State.absTimeAnswer, h]
  rfl

theorem State.tfailAnswer_of_listed {s : State} {b : Bool} {rest : List Bool} (h : s.env.tfail = b :: rest) :
    s.tfailAnswer = (s.cfg.timerCanFail && b) := by
  rw [State.tfailAnswer, h]
  rfl

/-- Settles O60: each value is the answer of an environment that lists it. -/
theorem drawsTakeEveryValue : Obligations.DrawsTakeEveryValue := by
  intro s i
  refine ⟨s.adcAnswer_lt i, fun v hv => ⟨{ Env.initial with adc := [v] }, ?_⟩,
    fun v => ⟨{ Env.initial with absTime := [v] }, State.absTimeAnswer_of_listed rfl i⟩, fun hnever => ?_,
    fun hcan b => ⟨{ Env.initial with tfail := [b] }, ?_⟩⟩
  · apply BitVec.eq_of_toNat_eq
    rw [State.adcAnswer_of_listed rfl]
    exact Nat.mod_eq_of_lt hv
  · rw [State.tfailAnswer, hnever, Bool.false_and]
  · rw [State.tfailAnswer_of_listed rfl]
    exact (congrArg (· && b) hcan).trans (Bool.true_and b)

/-! ## One sample (R162, R168, R169) -/

/-- From `s` to `t` slot `i` and the environment were written, and nothing else. -/
def WritesSlotAndEnv (i : Nat) (s t : State) : Prop := ∃ e a, t = ({ s with env := e } : State).setAct i a

theorem WritesSlotAndEnv.trans {i : Nat} {s t u : State} (h : WritesSlotAndEnv i s t) (k : WritesSlotAndEnv i t u) :
    WritesSlotAndEnv i s u := by
  obtain ⟨e, a, rfl⟩ := h
  obtain ⟨e', a', rfl⟩ := k
  exact ⟨e', a', State.setAct_setAct { s with env := e' } i a a'⟩

theorem WritesSlotAndEnv.sampleTime (s : State) (i : Nat) : WritesSlotAndEnv i s (s.sampleTime i) := by
  unfold State.sampleTime
  split
  · exact ⟨_, _, rfl⟩
  · exact ⟨s.env, s.act i, (State.setAct_act s i).symm⟩

theorem WritesSlotAndEnv.sample (s : State) (i : Nat) : WritesSlotAndEnv i s (s.sample i) :=
  have hcount (t : State) : WritesSlotAndEnv i t (t.sampleCount i) := ⟨t.env, _, rfl⟩
  have hreading (t : State) : WritesSlotAndEnv i t (t.sampleReading i) := ⟨_, _, rfl⟩
  ((WritesSlotAndEnv.sampleTime s i).trans (hcount _)).trans (hreading _)

/-- A slot of the array holds what was written in it. -/
theorem WritesSlotAndEnv.eq {i : Nat} {s t : State} (h : WritesSlotAndEnv i s t) (hi : i < s.acts.length) :
    t = { s with env := t.env, acts := s.acts.set i (t.act i) } := by
  obtain ⟨e, a, ht⟩ := h
  have hact : t.act i = a := by
    rw [ht]
    exact State.act_setAct_same (s := { s with env := e }) a hi
  rw [hact, ht]
  rfl

theorem State.env_sampleTime (s : State) (i : Nat) :
    (s.sampleTime i).env = if (s.act i).ts = 0 then (s.afterAbsTime i).env else s.env := by
  unfold State.sampleTime
  split <;> rfl

theorem State.env_adc_sampleTime (s : State) (i : Nat) : (s.sampleTime i).env.adc = s.env.adc := by
  rw [State.env_sampleTime]
  split <;> rfl

/-- A sample takes one reading off the environment. -/
theorem State.env_adc_sample (s : State) (i : Nat) : (s.sample i).env.adc = s.env.adc.tail :=
  congrArg List.tail (s.env_adc_sampleTime i)

/-- A sample takes a time off the environment only while `TS` is 0. -/
theorem State.env_absTime_sample (s : State) (i : Nat) :
    (s.sample i).env.absTime = if (s.act i).ts = 0 then s.env.absTime.tail else s.env.absTime := by
  show (s.sampleTime i).env.absTime = _
  rw [State.env_sampleTime]
  split <;> rfl

/-- Settles O42: the slot after a sample is `act_sample`, its reading drawn after the timestamp and the count. -/
theorem sampleAccumulates : Obligations.SampleAccumulates := by
  intro s i hi
  have hcfg : ((s.sampleTime i).sampleCount i).cfg = s.cfg := (TickFrame.sampleTime s i).cfg
  have hadc : ((s.sampleTime i).sampleCount i).env.adc = s.env.adc := s.env_adc_sampleTime i
  refine ⟨_, _, _, State.act_sample s i hi ▸ (WritesSlotAndEnv.sample s i).eq hi, fun hts => ⟨if_neg hts, ?_⟩,
    fun v rest hts hv => ⟨?_, ?_⟩, hcfg ▸ State.adcAnswer_lt .., fun v rest hv => ⟨?_, ?_⟩⟩
  · rw [State.env_absTime_sample, if_neg hts]
  · rw [if_pos hts, State.absTimeAnswer_of_listed hv]
  · rw [State.env_absTime_sample, if_pos hts, hv, List.tail_cons]
  · rw [State.adcAnswer_of_listed (hadc.trans hv), hcfg]
  · rw [State.env_adc_sample, hv, List.tail_cons]

/-! ## The record of a whole window (R170) -/

theorem Activity.smp_afterStep (a : Activity) (now : Word) : (a.afterStep now).smp = a.smp := by
  unfold Activity.afterStep
  split
  · rfl
  · split
    · exact a.opened_smp
    · rfl

/-- What a tick leaves of the count of a slot of the set is what one `ActUpdate` leaves. -/
theorem State.cnt_tick {s : State} {i : Nat} (hn : s.actn ≤ s.acts.length) (hi : i < s.actn) :
    (s.tick.act i).cnt =
      if (s.act i).smp = true ∧ ((s.act i).afterStep (s.clock + 1)).ison = true
      then ((s.act i).afterStep (s.clock + 1)).cnt + 1 else ((s.act i).afterStep (s.clock + 1)).cnt := by
  obtain ⟨u, hframe, hact, -, htick⟩ := (s.act_tick i).2 hi
  have hlen : i < u.acts.length := by rw [hframe.acts_length]; omega
  rw [htick, State.cnt_actUpdate u i _ hlen, hact, Activity.smp_afterStep]

/-- A tick without a wrap keeps the count of a SAMPLER of the set: the update of each `now` within the window is one
sample. -/
theorem State.inCount_tick {s : State} {i : Nat} (hn : s.actn ≤ s.acts.length) (hi : i < s.actn)
    (hv : (s.act i).Valid) (hs : (s.act i).smp = true) (hwrap : s.clock.toNat + 1 < 2 ^ 32)
    (h : (s.act i).InPhase s.clock.toNat) (hc : (s.act i).InCount s.clock.toNat) :
    (s.tick.act i).InCount (s.clock.toNat + 1) := by
  intro hon
  rw [State.ison_tick hn hi] at hon
  have hcount := Activity.cnt_afterStep_of_inCount hv hs (clock_succ s.clock hwrap) h hc hon
  rw [State.cnt_tick hn hi, if_pos ⟨hs, hon⟩, hcount, (TickFrame.tick s).act i]

/-- A window that closes at the update of `c + 1` has been sampled at each of its `DURATION` updates, and it was not
empty. -/
theorem Activity.cnt_of_closing {a : Activity} (hv : a.Valid) {c : Nat} {now : Word} (hn : now.toNat = c + 1)
    (h : a.InPhase c) (hc : a.InCount c) (hon : a.ison = true)
    (hclose : a.duration.toNat ≤ a.elapsed now ∨ a.elapsed now = 0) :
    a.offset.toNat ≤ c ∧ a.duration.toNat ≠ 0 ∧ a.cnt = a.duration := by
  obtain ⟨hoff, hinside, -⟩ := h.mp hon
  have hcnt := hc hon
  have hle := hv.duration_le
  have hsucc : c + 1 - a.offset.toNat = c - a.offset.toNat + 1 := by omega
  rw [Activity.elapsed, hn, hsucc] at hclose
  refine ⟨hoff, by omega, BitVec.eq_of_toNat_eq ?_⟩
  rcases mod_succ_cases (c - a.offset.toNat) a.period.toNat hv.period_pos with ⟨-, hlast⟩ | ⟨hnext, -⟩
  · -- a new period begins: the window was `ON` to the last update of its period, so `DURATION = PERIOD`
    omega
  · -- within the period: the window was `ON` one update before, so it ends at `DURATION` exactly
    omega

/-- The close of a window that was not empty is the only put of its update, whether a new window opens or not. -/
theorem Activity.stepPuts_of_closing {a : Activity} {now : Word} (hoff : a.offset.toNat ≤ now.toNat)
    (hs : a.smp = true) (hon : a.ison = true) (hd : a.duration.toNat ≠ 0)
    (hclose : a.duration.toNat ≤ a.elapsed now ∨ a.elapsed now = 0) : a.stepPuts now = [a.record] := by
  rw [Activity.stepPuts, if_neg (by simp [hs, hoff])]
  by_cases he : a.elapsed now = 0
  · rw [if_pos he, if_pos hon, if_neg hd, List.append_nil]
  · rw [if_neg he, if_pos ⟨hon, hclose.resolve_right he⟩]

/-- Settles O46: a tick keeps the count, and the one put of the closing update is the record of the slot it finds. -/
theorem windowRecordsCountDuration : Obligations.WindowRecordsCountDuration := by
  refine ⟨fun s i hn hi hv hs hwrap h hc => ?_, fun s i c now hi hv hs h hc hnow hon hclose => ?_⟩
  · rw [State.tick_clock_toNat hwrap]
    exact State.inCount_tick hn hi hv hs hwrap h hc
  · obtain ⟨hoff, hd, hcnt⟩ := Activity.cnt_of_closing hv hnow h hc hon hclose
    have hring := RingPuts.actUpdate s i now hi
    rw [Activity.stepPuts_of_closing (by omega) hs hon hd hclose] at hring
    obtain ⟨hslots, hwrPos, -⟩ := hring
    rw [hslots, hwrPos, ← hcnt, ← Activity.record_eq]
    exact ⟨Memory.read_write_same .., rfl⟩

end Sys2Proof.Machine
end

section
/-! PROOFS of the statements about 43_dispatcher.md, first part: the dispatch invariants, and the order and the frame
of a tick (O55, O48, O49, O7). -/

namespace Sys2Proof.Machine
open Sys2Proof.Claims

/-! ## The dispatch invariants (R190) -/

/-- With `RUN = 0` the invariants ask only that the slots outside the set are `OFF`. -/
theorem State.dispatching_of_not_run {s : State} (hr : s.run = false)
    (hoff : ∀ j, s.actn ≤ j → (s.act j).ison = false) : s.Dispatching :=
  have hrun {p : Prop} (h : s.run = true) : p := absurd h (by simp [hr])
  ⟨hrun, hrun, hrun, hoff⟩

/-- START turns `OFF` the slots of the old set that the new set does not hold, and keeps `CONF` (R186). -/
theorem State.ison_beginRun_outside {s : State} (hs : s.Dispatching) {n j : Nat} (hj : n ≤ j) :
    ((s.beginRun n).act j).ison = false := by
  rw [(s.beginRun_spec n).2.2, if_neg (by omega)]
  split
  · rfl
  · exact hs.off_outside j (by omega)

theorem State.conf_beginRun (s : State) {n j : Nat} (hj : j < n) :
    ((s.beginRun n).act j).conf = (s.act j).conf := by
  rw [(s.beginRun_spec n).2.2, if_pos hj, Activity.afterStart]
  split <;> rfl

theorem State.actn_beginRun (s : State) (n : Nat) : (s.beginRun n).actn = n := by rw [(s.beginRun_spec n).1]

/-- A START that is carried out found the state initialised, not fatal and the new set configured. -/
theorem State.dispatching_started {s : State} (hs : s.Dispatching) {n : Nat} (hf : s.fatal = false)
    (ht : s.tinit = true) (hc : ∀ i, i < n → (s.act i).conf = true) :
    ({ s.beginRun n with run := true } : State).Dispatching where
  run_fatal _ := by rw [(s.beginRun_spec n).1]; exact hf
  run_tinit _ := by rw [(s.beginRun_spec n).1]; exact ht
  run_conf _ j hj :=
    have hjn : j < n := s.actn_beginRun n ▸ hj
    (s.conf_beginRun hjn).trans (hc j hjn)
  off_outside j hj := State.ison_beginRun_outside hs (s.actn_beginRun n ▸ hj)

/-- STOP empties the set and turns its slots `OFF` (R187). -/
theorem State.ison_stopSequence {s : State} (hs : s.Dispatching) (j : Nat) :
    (s.stopSequence.act j).ison = false := by
  rw [s.stopSequence_spec.2.2]
  split
  · rfl
  · exact hs.off_outside j (by omega)

theorem State.run_stopSequence (s : State) : s.stopSequence.run = false := by rw [s.stopSequence_spec.1]

/-- Every command keeps the invariants: START establishes them for the new set, STOP and a timer failure leave
`RUN = 0`, and ACTCFG leaves an `OFF` slot and runs only while `RUN = 0`. -/
theorem Executed.dispatching {s t : State} {i : Instr} (h : Executed s i t) (hs : s.Dispatching) :
    t.Dispatching := by
  cases h with
  | startDone n hf ht _ hc =>
    obtain ⟨hfatal, htinit, hconf, hoff⟩ := State.dispatching_started hs hf ht hc
    exact ⟨hfatal, htinit, hconf, hoff⟩
  | startFail n =>
    exact State.dispatching_of_not_run rfl fun j hj => State.ison_beginRun_outside hs (s.actn_beginRun n ▸ hj)
  | initFail => exact State.dispatching_of_not_run rfl hs.off_outside
  | initDone => exact ⟨hs.run_fatal, fun _ => rfl, hs.run_conf, hs.off_outside⟩
  | stopped => exact State.dispatching_of_not_run s.run_stopSequence fun j _ => State.ison_stopSequence hs j
  | configured k _ hr =>
    refine State.dispatching_of_not_run hr fun j hj => ?_
    rw [State.act_respond, State.act_setAct]
    split
    · rfl
    · exact hs.off_outside j hj
  | got => rw [s.afterRbGet_eq]; exact ⟨hs.run_fatal, hs.run_tinit, hs.run_conf, hs.off_outside⟩
  | _ => exact ⟨hs.run_fatal, hs.run_tinit, hs.run_conf, hs.off_outside⟩

/-- A tick keeps the invariants: it writes no flag of theirs, no `CONF`, and no slot outside the set. -/
theorem State.dispatching_tick {s : State} (hs : s.Dispatching) : s.tick.Dispatching := by
  have hf := TickFrame.tick s
  constructor <;> simp only [hf.run, hf.fatal, hf.tinit, hf.actn]
  · exact hs.run_fatal
  · exact hs.run_tinit
  · intro hr j hj
    rw [hf.act j]
    exact hs.run_conf hr j hj
  · intro j hj
    rw [(s.act_tick j).1 hj]
    exact hs.off_outside j hj

/-- Settles O55, case by case of what a step can do. -/
theorem stepsKeepDispatchInvariants : Obligations.StepsKeepDispatchInvariants := by
  intro s t hs h
  have took (e : Event) (rest : List Event) : (s.took e rest).Dispatching :=
    ⟨hs.run_fatal, hs.run_tinit, hs.run_conf, hs.off_outside⟩
  cases step_cases h with
  | command cmd wdata rest i t _ _ he => exact he.dispatching (took _ rest)
  | rejected | dropped => exact ⟨hs.run_fatal, hs.run_tinit, hs.run_conf, hs.off_outside⟩
  | ticked rest => exact State.dispatching_tick (took .tick rest)
  | reset => exact State.dispatching_of_not_run rfl fun j _ => congrArg Activity.ison (State.act_afterReset _ _ _ j)

/-! ## The order of a tick (R181, R182) -/

/-- The slots a tick updates, in its order: the primaries of the set, then the secondaries. -/
def State.tickOrder (s : State) : List Nat :=
  (List.range s.actn).filter (fun i => !(s.act i).sec) ++ (List.range s.actn).filter (fun i => (s.act i).sec)

theorem State.mem_tickOrder {s : State} {i : Nat} : i ∈ s.tickOrder ↔ i < s.actn := by
  simp only [State.tickOrder, List.mem_append, List.mem_filter, List.mem_range]
  cases (s.act i).sec <;> simp

theorem State.tick_eq_foldl_tickOrder (s : State) :
    s.tick = s.tickOrder.foldl (fun t i => t.actUpdate i (s.clock + 1)) s.advanceClock := s.tick_eq_foldl

/-- Each pass goes up the slot indices, and every slot of the first is a primary and of the second a secondary. -/
theorem State.pairwise_tickOrder (s : State) :
    s.tickOrder.Pairwise (fun i j =>
      ((s.act i).sec = (s.act j).sec ∧ i < j) ∨ ((s.act i).sec = false ∧ (s.act j).sec = true)) := by
  refine List.pairwise_append.mpr ⟨List.pairwise_filter.mpr ?_, List.pairwise_filter.mpr ?_, fun i hi j hj => ?_⟩
  · exact List.pairwise_lt_range.imp fun hlt hi hj => .inl ⟨by simp_all, hlt⟩
  · exact List.pairwise_lt_range.imp fun hlt hi hj => .inl ⟨hi.trans hj.symm, hlt⟩
  · exact .inr ⟨by simpa using (List.mem_filter.mp hi).2, (List.mem_filter.mp hj).2⟩

/-- Settles O48: the two passes are one list of updates, `tickOrder`. -/
theorem tickUpdatesPrimariesFirst : Obligations.TickUpdatesPrimariesFirst := fun s =>
  ⟨s.tickOrder, fun _ => State.mem_tickOrder, s.pairwise_tickOrder, s.tick_eq_foldl_tickOrder⟩

/-! ## The frame of a tick (R181) -/

/-- The frame as one equation: the fields a tick may write are the only ones not taken from `s`. -/
theorem TickFrame.eq {s t : State} (h : TickFrame s t) :
    t = { s with
      clock := t.clock, ovf := t.ovf, wrPos := t.wrPos, slots := t.slots, acts := t.acts, env := t.env } := by
  simp only [← h.run, ← h.tinit, ← h.fatal, ← h.unf, ← h.cfgErr, ← h.cmdErr, ← h.errCause, ← h.actn, ← h.rdPos,
    ← h.cfgOffset, ← h.cfgPeriod, ← h.cfgDuration, ← h.cfgFlags, ← h.cfg, ← h.resp, ← h.agenda]

/-- Updates of TASK slots draw nothing (42_sampler.md R171). -/
theorem State.env_foldl_of_tasks {l : List Nat} {now : Word} {s : State}
    (hl : ∀ i ∈ l, i < s.acts.length ∧ (s.act i).smp = false) :
    (l.foldl (fun t i => t.actUpdate i now) s).env = s.env := by
  induction l generalizing s with
  | nil => rfl
  | cons i rest ih =>
    obtain ⟨hi, htask⟩ := hl i List.mem_cons_self
    obtain ⟨henv, hupdate, -⟩ := updateSwitchesThenSamples s i now hi
    have hf := TickFrame.actUpdate s i now
    rw [List.foldl_cons, ih fun j hj => ?_, (hupdate htask).1, henv]
    rw [hf.acts_length, hf.act j]
    exact hl j (List.mem_cons_of_mem _ hj)

theorem State.env_tick_of_tasks {s : State} (hn : s.actn ≤ s.acts.length)
    (htask : ∀ i, i < s.actn → (s.act i).smp = false) : s.tick.env = s.env := by
  rw [State.tick_eq_foldl_tickOrder]
  refine State.env_foldl_of_tasks (s := s.advanceClock) fun i hi => ?_
  have hin := State.mem_tickOrder.mp hi
  exact ⟨Nat.lt_of_lt_of_le hin hn, htask i hin⟩

theorem State.tickPuts_of_tasks {s : State} (htask : ∀ i, i < s.actn → (s.act i).smp = false) : s.tickPuts = 0 := by
  refine List.sum_eq_zero fun x hx => ?_
  obtain ⟨i, hi, rfl⟩ := List.mem_map.mp hx
  exact if_pos (.inl (htask i (List.mem_range.mp hi)))

/-- Settles O49: the frame, and the ring after as many puts as the tick counts. -/
theorem tickFrame : Obligations.TickFrame := by
  intro s hn
  have hf := TickFrame.tick s
  obtain ⟨recs, ⟨hslots, hwr, hovf, -, -⟩, hlen⟩ := RingPuts.tick hn
  refine ⟨s.tick_clock ▸ hf.eq, hf.acts_length, hf.act, fun i => (s.act_tick i).1, hf.ovf, fun hw => ?_,
    fun htask => ?_⟩
  · rw [hslots, hwr, hovf, ← hlen]
    exact ⟨State.rbPuts_wrPos recs hw, fun k => State.read_rbPuts recs hw, fun hr => State.rbPuts_ovf recs hr hw⟩
  · have hputs := State.tickPuts_of_tasks htask
    obtain rfl : recs = [] := List.length_eq_zero_iff.mp (hlen.trans hputs)
    exact ⟨hputs, hovf, hwr, State.env_tick_of_tasks hn htask, fun k => congrArg (Memory.read k) hslots⟩

/-! ## When a tick is taken (R180) -/

theorem State.nextAction_tick {s : State} {rest : List Event} (ha : s.agenda = .tick :: rest) :
    s.nextAction = .settled (.next (if s.run then s.takeTick rest else { s with agenda := rest })) := by
  rw [State.nextAction, ha]

theorem State.nextAction_nil {s : State} (ha : s.agenda = []) :
    s.nextAction = if s.run then .settled (.next (s.takeTick [])) else .settled (.fault .runComplete) := by
  rw [State.nextAction, ha]

theorem step_of_nextAction_settled {s : State} {o : StepOutcome} (h : s.nextAction = .settled o) : step s = o := by
  rw [step, h]

/-- Settles O7: the next action by the agenda and `RUN`; the `taken` of the claim is `took`. -/
theorem ticksAndEndOfRun : Obligations.TicksAndEndOfRun := by
  refine fun s => ⟨fun rest ha hr => ?_, fun rest ha hr => ?_, fun ha hr => ?_, fun ha hr => ?_⟩ <;>
    apply step_of_nextAction_settled
  · rw [State.nextAction_tick ha, hr]; rfl
  · rw [State.nextAction_tick ha, hr]; rfl
  · rw [State.nextAction_nil ha, hr]; rfl
  · rw [State.nextAction_nil ha, hr]; rfl

end Sys2Proof.Machine
end

section
/-! PROOFS of the statements about 43_dispatcher.md, second part: the timer contract and ACTCFG (O24, O25, O28, O29,
O30). -/

namespace Sys2Proof.Machine
open Sys2Proof.Claims

/-! ## INIT (R185) -/

/-- INIT once neither refused nor without effect. -/
theorem exec_init_of_uninitialised {s : State} (hf : s.fatal = false) (ht : s.tinit = false) :
    exec .init s = .next s.initTimer := by
  show execInit s = _
  rw [execInit, if_neg (by simp [hf]), if_neg (by simp [ht])]

/-- Settles O24, by the two checks and the answer of the draw. -/
theorem initCases : Obligations.InitCases := by
  refine fun s => ⟨fun hf => ?_, fun hf ht => ?_, fun hf ht hdraw => ?_, fun hf ht hdraw => ?_⟩
  · show execInit s = _
    rw [execInit, if_pos hf]
    rfl
  · show execInit s = _
    rw [execInit, if_neg (by simp [hf]), if_pos ht]
    rfl
  · rw [exec_init_of_uninitialised hf ht, State.initTimer, if_neg (by simp [hdraw])]
    exact ⟨s.afterTfail.env, rfl⟩
  · rw [exec_init_of_uninitialised hf ht, State.initTimer, if_pos hdraw]
    exact ⟨State.timerCanFail_of_tfail hdraw, s.afterTfail.env, rfl⟩

/-! ## START and STOP (R186, R187, R191) -/

/-- START once its four checks pass (60_exceptions.md R244). -/
theorem exec_start_of_checks {s : State} {n : Nat} (hf : s.fatal = false) (ht : s.tinit = true) (hn : n ≤ s.cfg.nAct)
    (hc : ∀ i, i < n → (s.act i).conf = true) : exec (.start n) s = .next (s.beginRun n).enableTicks := by
  show execStart n s = _
  have hconf := (s.allConfigured_iff n).mpr hc
  rw [execStart, if_neg (by simp [hf]), if_neg (by simp [ht]), if_neg (by omega), if_neg (by simp [hconf])]

/-- Settles O25: what START does before its draw is `beginRun_spec`, and the draw lets the ticks begin. -/
theorem startResult : Obligations.StartResult := by
  intro s n hf ht hn _ hc hdraw
  obtain ⟨hfields, hlen, hact⟩ := s.beginRun_spec n
  refine ⟨_, exec_start_of_checks hf ht hn hc, ?_⟩
  rw [State.enableTicks, if_neg (by simp [hdraw])]
  refine ⟨?_, hlen, hact⟩
  rw [hfields]
  rfl

/-- Settles O28: STOP is `StopSequence` and a response. -/
theorem stopResult : Obligations.StopResult := by
  intro s
  obtain ⟨hfields, hlen, hact⟩ := s.stopSequence_spec
  refine ⟨_, rfl, ?_, hlen, hact⟩
  rw [hfields]
  rfl

theorem State.conf_stopSequence (s : State) (j : Nat) : (s.stopSequence.act j).conf = (s.act j).conf := by
  rw [s.stopSequence_spec.2.2]
  split <;> rfl

theorem ison_started (a : Activity) : (started a).ison = false := by
  unfold started
  split <;> rfl

/-- Settles O29: STOP leaves every slot `OFF`, and START a clock of 0; neither writes the ring. -/
theorem stopThenStart : Obligations.StopThenStart := by
  intro s n hs hf ht hn hl hc
  have hstop := (Executed.stopped (s := s)).frame
  refine ⟨_, rfl, fun hdraw => ?_⟩
  obtain ⟨u, hstart, hfields, -, hact⟩ := startResult (s.stopSequence.respond 0 0 0 0) n
    (by rw [s.stopSequence_spec.1]; exact hf) (by rw [s.stopSequence_spec.1]; exact ht) (hstop.cfg ▸ hn)
    (by rw [hstop.acts_length, hstop.cfg, hl]) (fun i hi => (s.conf_stopSequence i).trans (hc i hi)) hdraw
  have hrun := (exec_cases hstart).frame
  have hslots := hrun.slots.trans hstop.slots
  have hwr := hrun.wrPos.trans hstop.wrPos
  have hrd : u.rdPos = s.rdPos := by rw [hfields, s.stopSequence_spec.1]; rfl
  refine ⟨u, hstart, congrArg State.clock hfields, congrArg State.run hfields, fun i => ?_, hrd, hwr,
    State.unread_of_ring hrd hwr (hrun.cfg.trans hstop.cfg) hslots, fun k => congrArg (Memory.read k) hslots⟩
  rw [hact i]
  split
  · exact ison_started _
  · split
    · rfl
    · exact State.ison_stopSequence hs i

/-! ## ACTCFG (R189) -/

/-- ACTCFG once its checks pass (60_exceptions.md R244). -/
theorem exec_actcfg_of_checks {s : State} {i : Nat} (hi : i < s.cfg.nAct) (hr : s.run = false) (ho : s.StagedOk) :
    exec (.actcfg i) s = .next ((s.setAct i s.stagedActivity).respond 0 0 0 0) := by
  obtain ⟨hflags, hperiod, hle, hrange⟩ := ho
  show execActcfg i s = _
  rw [execActcfg, if_neg (by omega), if_neg (by simp [hr]), if_neg (by simp [hflags]), if_neg (by omega),
    if_neg (by omega), if_neg (by omega)]

/-- Settles O30: ACTCFG writes its slot with `stagedActivity` and responds. -/
theorem actcfgResult : Obligations.ActcfgResult := by
  intro s i hl hi hr hlow hhigh hperiod hle hrange
  have ho : s.StagedOk := ⟨by simp [flagsBad, hlow, hhigh], hperiod, hle, hrange⟩
  exact ⟨_, exec_actcfg_of_checks hi hr ho, rfl, List.length_set, State.act_setAct_same _ (hl ▸ hi),
    fun j hj => State.act_setAct_ne _ hj⟩

end Sys2Proof.Machine
end

section
/-! PROOFS of the statements about 44_csr.md: NOP and ISACTIVE, and what a CSRW of a mapped register does (O16, O11,
O17). -/

namespace Sys2Proof.Machine
open Sys2Proof.Claims

/-! ## CSRW by the access of the register it names (44_csr.md R222) -/

theorem exec_csrw_of_access_ro {s : State} {a : Nat} {c : Csr} (v : Word) (h : csrAt s.cfg.nAct a = some c)
    (hc : c.access = .ro) : exec (.csrw a v) s = .next (refusedWith s 0x04 false) := by
  simp only [exec, execCsrw, h, hc]
  rfl

theorem exec_csrw_of_access_ne_ro {s : State} {a : Nat} {c : Csr} (v : Word) (h : csrAt s.cfg.nAct a = some c)
    (hc : c.access ≠ .ro) : exec (.csrw a v) s = .next { s.writeCsr c v with resp := answers 0 0 0 0 } := by
  simp only [exec, execCsrw, h]
  cases ha : c.access with
  | ro => exact absurd ha hc
  | rw => rfl
  | status => rfl

/-- The addresses of the CSR map (10_state.md R39) are those that name a register. -/
theorem csrAt_eq_none_iff {nAct a : Nat} : csrAt nAct a = none ↔ ¬ Mapped nAct a := by
  refine ⟨fun h => ?_, csrAt_of_not_mapped⟩
  simp only [csrAt, ite_eq_iff, reduceCtorEq, and_false, false_or, and_true] at h
  unfold Mapped
  omega

theorem csrAt_of_mapped {nAct a : Nat} (h : Mapped nAct a) : ∃ c, csrAt nAct a = some c :=
  Option.ne_none_iff_exists'.mp fun hnone => csrAt_eq_none_iff.mp hnone h

/-- Settles O16: a mapped address names a register, and the ones CSRW may write stand at the excluded addresses. -/
theorem readOnlyCsrsAreRefused : Obligations.ReadOnlyCsrsAreRefused := by
  intro s a v hm hstatus hstaging
  obtain ⟨c, hc⟩ := csrAt_of_mapped hm
  have hro : c.access = .ro := by
    by_contra hw
    have hwritable := csrAt_writable hc hw
    omega
  exact exec_csrw_of_access_ro v hc hro

/-! ## STATUS and the staging registers (44_csr.md R223, R224) -/

/-- `WriteStatus(v)` flag by flag: a 1 clears, a 0 keeps. -/
theorem State.writeStatus_eq_ite (s : State) (v : Word) : s.writeStatus v = { s with
    ovf := if v.getLsbD 3 = true then false else s.ovf
    unf := if v.getLsbD 4 = true then false else s.unf
    cfgErr := if v.getLsbD 5 = true then false else s.cfgErr
    cmdErr := if v.getLsbD 6 = true then false else s.cmdErr } := by
  simp only [State.writeStatus, Bool.if_false_left, Bool.decide_eq_true, Bool.and_comm]

/-- Settles O17: the five addresses name the registers that CSRW may write. -/
theorem csrwWritesStatusAndStaging : Obligations.CsrwWritesStatusAndStaging := by
  intro s v
  refine ⟨?_, exec_csrw_of_access_ne_ro (c := .cfgOffset) v rfl (by decide),
    exec_csrw_of_access_ne_ro (c := .cfgPeriod) v rfl (by decide),
    exec_csrw_of_access_ne_ro (c := .cfgDuration) v rfl (by decide),
    exec_csrw_of_access_ne_ro (c := .cfgFlags) v rfl (by decide)⟩
  rw [exec_csrw_of_access_ne_ro (c := .status) v rfl (by decide), State.writeCsr, State.writeStatus_eq_ite]

/-! ## NOP and ISACTIVE (44_csr.md R220, 43_dispatcher.md R188) -/

theorem wordOfBits_singleton (b : Bool) : wordOfBits [b] = if b = true then 1 else 0 := by
  cases b <;> rfl

/-- Settles O11: both commands only respond, ISACTIVE with the one-bit word of `RUN`. -/
theorem nopAndIsactiveOnlyRespond : Obligations.NopAndIsactiveOnlyRespond := by
  refine fun s => ⟨rfl, ?_⟩
  rw [← wordOfBits_singleton]
  rfl

end Sys2Proof.Machine
end

section
/-! PROOFS of the statements about 60_exceptions.md, first part: every command answers, the refusals of START and
ACTCFG, a START whose timer fails, and the error report (O8, O27, O31, O26, O57). -/

namespace Sys2Proof.Machine
open Sys2Proof.Claims

/-! ## Every command answers (R240) -/

theorem Executed.exists_resp {s t : State} {i : Instr} (h : Executed s i t) : ∃ r, t.resp = some r := by
  rcases h.carriedOut_or_not with ⟨⟨r0, r1, r2, r3, hresp⟩, -⟩ | ⟨_, -, hresp, -⟩
  · exact ⟨_, hresp⟩
  · exact ⟨_, hresp⟩

/-- A command, a tick or the reset event that is next is taken (00_scope.md R6). -/
theorem step_of_agenda_cons {s : State} {e : Event} {rest : List Event} (ha : s.agenda = e :: rest) :
    ∃ t, step s = .next t := by
  cases e with
  | command cmd wdata =>
    cases hd : decode cmd wdata with
    | instr i =>
      obtain ⟨t, ht, -⟩ := executed i (taken s (.command cmd wdata) rest)
      exact ⟨t, (stepRunsDecodedCommand s cmd wdata rest i ha hd).trans ht⟩
    | reject e => exact ⟨_, step_of_reject ha hd⟩
  | tick => exact ⟨_, step_of_nextAction_settled (State.nextAction_tick ha)⟩
  | reset => exact (resetEventSetsEveryField s rest ha).imp fun _ h => h.1

/-- Settles O8: a command is one of the cases of `Executed`, and with nothing left to happen `RUN` decides. -/
theorem everyCommandAnswers : Obligations.EveryCommandAnswers := by
  refine ⟨fun i s => ?_, fun s => ?_⟩
  · obtain ⟨t, ht, he⟩ := executed i s
    obtain ⟨r, hr⟩ := he.exists_resp
    exact ⟨t, r, ht, hr⟩
  · obtain ⟨-, -, hlast, hend⟩ := ticksAndEndOfRun s
    cases ha : s.agenda with
    | cons e rest => exact .inl (step_of_agenda_cons ha)
    | nil =>
      cases hr : s.run with
      | true => exact .inl ⟨_, hlast ha hr⟩
      | false => exact .inr ⟨⟨ha, hr⟩, hend ha hr⟩

/-! ## The refusals of START and ACTCFG (R241, R244) -/

theorem State.allConfigured_eq_false_iff (s : State) (n : Nat) :
    s.allConfigured n = false ↔ ∃ i, i < n ∧ (s.act i).conf = false := by
  rw [← Bool.not_eq_true, State.allConfigured_iff]
  simp

/-- Settles O27, check by check in the order of `execStart`. -/
theorem startRefusals : Obligations.StartRefusals := by
  refine fun s n => ⟨fun hf => ?_, fun hf ht => ?_, fun hf ht hn => ?_, fun hf ht hn hc => ?_⟩ <;>
    show execStart n s = _
  · rw [execStart, if_pos hf]; rfl
  · rw [execStart, if_neg (by simp [hf]), if_pos (by simp [ht])]; rfl
  · rw [execStart, if_neg (by simp [hf]), if_neg (by simp [ht]), if_pos hn]; rfl
  · have hconf := (s.allConfigured_eq_false_iff n).mpr hc
    rw [execStart, if_neg (by simp [hf]), if_neg (by simp [ht]), if_neg (by omega), if_pos (by simp [hconf])]; rfl

/-- The bits of `CFG_FLAGS` that ACTCFG wants clear (10_state.md R43). -/
theorem flagsBad_iff (f : Word) : flagsBad f = true ↔ f.extractLsb' 2 6 ≠ 0 ∨ f.extractLsb' 24 8 ≠ 0 := by
  simp [flagsBad]

/-- Settles O31, check by check in the order of `execActcfg`. -/
theorem actcfgRefusals : Obligations.ActcfgRefusals := by
  refine fun s i => ⟨fun hi => ?_, fun hi hr => ?_, fun hi hr => ?_⟩
  · simp only [exec, execActcfg, if_pos hi]; rfl
  · simp only [exec, execActcfg, if_neg (Nat.not_le.mpr hi), if_pos hr]; rfl
  · simp only [exec, execActcfg, if_neg (Nat.not_le.mpr hi), if_neg (Bool.eq_false_iff.mp hr)]
    refine ⟨fun hbad => ?_, fun hlow hhigh => ?_⟩
    · rw [if_pos ((flagsBad_iff _).mpr hbad)]; rfl
    · have hflags : ¬ flagsBad s.cfgFlags = true := by simp [flagsBad_iff, hlow, hhigh]
      have hperiod : s.cfgPeriod = 0 ↔ s.cfgPeriod.toNat = 0 := BitVec.toNat_inj.symm
      simp only [if_neg hflags, ne_eq, hperiod]
      refine ⟨fun hz => ?_, fun hz hgt => ?_, fun hz hle hrange => ?_⟩
      · rw [if_pos hz]; rfl
      · rw [if_neg hz, if_pos hgt]; rfl
      · rw [if_neg hz, if_neg (by omega), if_pos hrange]; rfl

/-! ## A START whose timer fails (R247) -/

/-- Settles O26: what START does before its draw is `beginRun_spec`, and the failure keeps it. -/
theorem startTimerFailure : Obligations.StartTimerFailure := by
  intro s n hf ht hn _ hc hdraw
  obtain ⟨hfields, hlen, hact⟩ := s.beginRun_spec n
  have hcfg : (s.beginRun n).cfg = s.cfg := by rw [hfields]
  refine ⟨hcfg ▸ State.timerCanFail_of_tfail hdraw, _, exec_start_of_checks hf ht hn hc, ?_⟩
  rw [State.enableTicks, if_pos hdraw]
  refine ⟨?_, hlen, hact⟩
  rw [hfields]
  rfl

/-! ## The error report (R242, 10_state.md R26 to R28) -/

theorem Cause.code_ne_zero (c : Cause) : c.code ≠ 0 := by cases c <;> decide

theorem Cause.code_le (c : Cause) : c.code.toNat ≤ 0x0F := by cases c <;> decide

/-- A state whose `ERRCAUSE` is the code of a cause reports legally, whatever its flags. -/
theorem State.reporting_of_code {s : State} {c : Cause} (h : s.errCause = c.code) : s.Reporting :=
  have hnone {p : Prop} (hz : s.errCause = 0) : p := absurd (h.symm.trans hz) c.code_ne_zero
  ⟨h ▸ c.code_le, hnone, hnone, hnone⟩

/-- The report stays legal while `ERRCAUSE` stays and no flag is set. -/
theorem State.Reporting.of_flags_le {s t : State} (hs : s.Reporting) (herr : t.errCause = s.errCause)
    (hcfg : t.cfgErr = true → s.cfgErr = true) (hcmd : t.cmdErr = true → s.cmdErr = true)
    (hfatal : t.fatal = true → s.fatal = true) : t.Reporting where
  code_le := herr ▸ hs.code_le
  none_cfgErr hz := Bool.eq_false_iff.mpr fun h => not_cleared_of_kept hcfg h (hs.none_cfgErr (herr ▸ hz))
  none_cmdErr hz := Bool.eq_false_iff.mpr fun h => not_cleared_of_kept hcmd h (hs.none_cmdErr (herr ▸ hz))
  none_fatal hz := Bool.eq_false_iff.mpr fun h => not_cleared_of_kept hfatal h (hs.none_fatal (herr ▸ hz))

/-- Only a failure of the timer sets `FATAL` (R247). -/
theorem Executed.fatal_eq_or_timerFail {s t : State} {i : Instr} (h : Executed s i t) :
    t.fatal = s.fatal ∨ t.errCause = Cause.timerFail.code := by
  cases h with
  | initFail | startFail => exact .inr rfl
  | startDone n => rw [(s.beginRun_spec n).1]; exact .inl rfl
  | stopped => rw [s.stopSequence_spec.1]; exact .inl rfl
  | got => rw [s.afterRbGet_eq]; exact .inl rfl
  | _ => exact .inl rfl

theorem Executed.reporting {s t : State} {i : Instr} (h : Executed s i t) (hs : s.Reporting) : t.Reporting := by
  rcases h.carriedOut_or_not with ⟨-, herr, hcfg, hcmd⟩ | ⟨c, -, -, hcode, -⟩
  · rcases h.fatal_eq_or_timerFail with hfatal | hcode
    · exact hs.of_flags_le herr hcfg hcmd hfatal.symm.trans
    · exact State.reporting_of_code hcode
  · exact State.reporting_of_code hcode

/-- Settles O57: a command or a rejected word reports by `Executed.reporting` or by its cause, and a tick writes nothing
of the report. -/
theorem stepsKeepErrorReport : Obligations.StepsKeepErrorReport := by
  intro s t hs h
  have took (e : Event) (rest : List Event) : (s.took e rest).Reporting := hs.of_flags_le rfl id id id
  cases step_cases h with
  | command cmd wdata rest i t _ _ he => exact he.reporting (took _ rest)
  | rejected => exact State.reporting_of_code rfl
  | ticked rest =>
    have hf := TickFrame.tick (s.took .tick rest)
    exact (took .tick rest).of_flags_le hf.errCause hf.cfgErr.symm.trans hf.cmdErr.symm.trans hf.fatal.symm.trans
  | dropped => exact hs.of_flags_le rfl id id id
  | reset => exact ⟨Nat.zero_le _, fun _ => rfl, fun _ => rfl, fun _ => rfl⟩

end Sys2Proof.Machine
end

section
/-! PROOFS of the statements about 60_exceptions.md, second part: fair infinite runs (O58, O59; R256, R257). -/

namespace Sys2Proof.Machine
open Sys2Proof.Claims

/-! ## A fair run issues HOST's program (R257) -/

/-- A value that changes only at places where `P` holds is still the same at the first such place. -/
theorem exists_first_of_kept {α : Type} {f : Nat → α} {P : Nat → Prop} {m : Nat} (hex : ∃ l, m ≤ l ∧ P l)
    (hkeep : ∀ j, m ≤ j → ¬ P j → f (j + 1) = f j) : ∃ l, m ≤ l ∧ P l ∧ f l = f m := by
  obtain ⟨l, hml, hl⟩ := hex
  obtain ⟨d, rfl⟩ := Nat.exists_eq_add_of_le hml
  induction d generalizing m with
  | zero => exact ⟨m, Nat.le_refl m, hl, rfl⟩
  | succ d ih =>
    by_cases hm : P m
    · exact ⟨m, Nat.le_refl m, hm, rfl⟩
    · obtain ⟨l, hle, hP, hf⟩ := ih (m := m + 1) (fun j hj => hkeep j (by omega)) (by omega)
        (by rwa [Nat.add_right_comm, Nat.add_assoc])
      exact ⟨l, by omega, hP, hf.trans (hkeep m (Nat.le_refl m) hm)⟩

theorem Run.issued_succ (r : Run) (n : Nat) : r.issued (n + 1) = r.issued n + (r.event n).isCommand.toNat := rfl

theorem Event.exists_of_isCommand {e : Event} (h : e.isCommand = true) : ∃ cmd wdata, e = .command cmd wdata := by
  cases e with
  | command cmd wdata => exact ⟨cmd, wdata, rfl⟩
  | tick | reset => cases h

/-- HOST's next command is issued while its number is still the same. -/
theorem Run.Fair.exists_next_command {r : Run} (hf : r.Fair) {n : Nat} (h : r.program (r.issued n) ≠ none) :
    ∃ m, n ≤ m ∧ (r.event m).isCommand = true ∧ r.issued m = r.issued n :=
  exists_first_of_kept (hf.host n h) fun j _ hj => by simp [Run.issued_succ, hj]

/-- Every number up to the end of the program is reached. -/
theorem Run.Fair.exists_issued_eq {r : Run} (hf : r.Fair) {k : Nat} (h : ∀ j, j < k → r.program j ≠ none) :
    ∃ n, r.issued n = k := by
  induction k with
  | zero => exact ⟨0, rfl⟩
  | succ k ih =>
    obtain ⟨n, hn⟩ := ih fun j hj => h j (by omega)
    obtain ⟨m, -, hcommand, hm⟩ := hf.exists_next_command (n := n) (hn ▸ h k (by omega))
    exact ⟨m + 1, by rw [Run.issued_succ, hcommand, hm, hn]; rfl⟩

theorem Run.Fair.issues_program {r : Run} (hf : r.Fair) (hi : r.Infinite) {k : Nat} {cmd wdata : Word}
    (h : ∀ j, j < k → r.program j ≠ none) (hk : r.program k = some (cmd, wdata)) :
    ∃ m, r.issued m = k ∧ r.event m = .command cmd wdata := by
  obtain ⟨n, rfl⟩ := hf.exists_issued_eq h
  obtain ⟨m, -, hcommand, hm⟩ := hf.exists_next_command (n := n) (by simp [hk])
  obtain ⟨cmd', wdata', hevent⟩ := Event.exists_of_isCommand hcommand
  have hprogram := hi.commands m cmd' wdata' hevent
  rw [hm, hk] at hprogram
  cases hprogram
  exact ⟨m, hm, hevent⟩

/-! ## The clock of a fair run (R257, 43_dispatcher.md R184) -/

theorem Run.Infinite.clock_of_tick {r : Run} (hi : r.Infinite) {m : Nat} (he : r.event m = .tick) :
    (r.state (m + 1)).clock = (r.state m).clock + 1 := by
  have hstep := hi.steps m
  rw [he] at hstep
  rcases step_tick_cases hstep (.inr ⟨[], rfl⟩) with ⟨-, rest, ht⟩ | ⟨hoff, -⟩
  · rw [ht, State.tick_clock]
    rfl
  · exact absurd (hi.ticks m he) (Bool.eq_false_iff.mp hoff)

/-- Any command word but a START leaves `CLOCK`. -/
theorem step_command_clock {s t : State} (h : step s = .next t) {cmd wdata : Word} {rest : List Event}
    (ha : s.agenda = .command cmd wdata :: rest) (hstart : ∀ k, decode cmd wdata ≠ .instr (.start k)) :
    t.clock = s.clock := by
  cases hd : decode cmd wdata with
  | reject e =>
    rw [step_of_reject ha hd] at h
    cases h
    rfl
  | instr i =>
    rw [stepRunsDecodedCommand s cmd wdata rest i ha hd] at h
    by_contra hne
    obtain ⟨-, -, -, hclock, -⟩ := (exec_cases h).runState_writes
    obtain ⟨k, rfl⟩ := hclock hne
    exact hstart k hd

theorem Run.Infinite.clock_of_not_tick {r : Run} (hi : r.Infinite) {m : Nat} (htick : r.event m ≠ .tick)
    (hreset : r.event m ≠ .reset)
    (hstart : ∀ cmd wdata k, r.event m = .command cmd wdata → decode cmd wdata ≠ .instr (.start k)) :
    (r.state (m + 1)).clock = (r.state m).clock := by
  cases he : r.event m with
  | tick => exact absurd he htick
  | reset => exact absurd he hreset
  | command cmd wdata =>
    have hstep := hi.steps m
    rw [he] at hstep
    exact step_command_clock (s := { r.state m with agenda := [.command cmd wdata] }) hstep rfl fun k =>
      hstart cmd wdata k he

/-- Settles O58: the first tick after a point finds the clock of that point, and the next state one more. -/
theorem fairRunsIssueAndTick : Obligations.FairRunsIssueAndTick := by
  refine fun r hi hf => ⟨fun k cmd wdata h hk => hf.issues_program hi h hk, fun n hon => ?_⟩
  have hticks := hf.ticks ⟨n, hon⟩
  refine ⟨hticks, fun hstart hreset d => ?_⟩
  induction d with
  | zero => exact ⟨n, Nat.le_refl n, (BitVec.add_zero _).symm⟩
  | succ d ih =>
    obtain ⟨m, hm, hclock⟩ := ih
    have hkeep (j : Nat) (hj : m ≤ j) (hnot : r.event j ≠ .tick) : (r.state (j + 1)).clock = (r.state j).clock :=
      hi.clock_of_not_tick hnot (hreset j (by omega)) fun cmd wdata k => hstart j cmd wdata k (by omega)
    obtain ⟨l, hl, htick, hkept⟩ := exists_first_of_kept (f := fun j => (r.state j).clock) (hticks m) hkeep
    refine ⟨l + 1, by omega, ?_⟩
    calc (r.state (l + 1)).clock
      _ = (r.state l).clock + 1 := hi.clock_of_tick htick
      _ = (r.state n).clock + BitVec.ofNat 32 d + 1 := by rw [hkept, hclock]
      _ = (r.state n).clock + BitVec.ofNat 32 (d + 1) := by rw [BitVec.add_assoc, BitVec.ofNat_add]; rfl

/-! ## A fair run of an endless program (R256, R257) -/

/-- The state after the step that takes one event. -/
def State.after (s : State) (e : Event) : State :=
  match step { s with agenda := [e] } with
  | .next t => t
  | .fault _ => s
  | .refused _ => s

theorem step_eq_after (s : State) (e : Event) : step { s with agenda := [e] } = .next (s.after e) := by
  obtain ⟨t, ht⟩ := step_of_agenda_cons (s := { s with agenda := [e] }) rfl
  rw [State.after, ht]

/-- Whose turn step `n` is: TICK's at odd steps if a tick is enabled, else HOST's, whose next command has number `k`. -/
def State.turn (s : State) (p : Nat → Word × Word) (n k : Nat) : Event :=
  if n % 2 = 1 ∧ s.run = true then .tick else .command (p k).1 (p k).2

/-- The course in which TICK and HOST take turns: the state before step `n`, and the number of HOST's next command. -/
def turns (s : State) (p : Nat → Word × Word) (n : Nat) : State × Nat :=
  match n with
  | 0 => (s, 0)
  | n + 1 =>
    ((turns s p n).1.after ((turns s p n).1.turn p n (turns s p n).2),
      (turns s p n).2 + ((turns s p n).1.turn p n (turns s p n).2).isCommand.toNat)

/-- That course as a run. -/
def Run.ofTurns (s : State) (p : Nat → Word × Word) : Run :=
  { state := fun n => (turns s p n).1
    event := fun n => (turns s p n).1.turn p n (turns s p n).2
    program := fun k => some (p k) }

theorem Run.issued_ofTurns (s : State) (p : Nat → Word × Word) (n : Nat) :
    (Run.ofTurns s p).issued n = (turns s p n).2 := by
  induction n with
  | zero => rfl
  | succ n ih => rw [Run.issued_succ, ih]; rfl

theorem Run.infinite_ofTurns (s : State) (p : Nat → Word × Word) : (Run.ofTurns s p).Infinite where
  steps n := step_eq_after _ _
  ticks n h := by
    by_contra hoff
    exact nomatch (if_neg fun hturn => hoff hturn.2).symm.trans h
  commands n cmd wdata h := by
    rw [Run.issued_ofTurns]
    simp only [Run.ofTurns, State.turn] at h ⊢
    split at h
    · cases h
    · cases h
      rfl

/-- An even step is HOST's, and an odd one TICK's while `RUN = 1`. -/
theorem Run.fair_ofTurns (s : State) (p : Nat → Word × Word) : (Run.ofTurns s p).Fair where
  ticks := by
    rintro ⟨n, hon⟩ m
    exact ⟨2 * (m + n) + 1, by omega, if_pos ⟨by omega, hon (2 * (m + n) + 1) (by omega)⟩⟩
  host n _ := by
    refine ⟨2 * n, by omega, ?_⟩
    show ((turns s p (2 * n)).1.turn p (2 * n) _).isCommand = true
    rw [State.turn, if_neg (by omega)]
    rfl

/-- Settles O59, by the run in which TICK and HOST take turns. -/
theorem everyEndlessProgramHasFairRun : Obligations.EveryEndlessProgramHasFairRun := fun s p =>
  ⟨Run.ofTurns s p, rfl, fun _ => rfl, Run.infinite_ofTurns s p, Run.fair_ofTurns s p⟩

end Sys2Proof.Machine
end

section
/-! PROOFS of the statements about 70_reset_and_hazards.md: the invariant of the block holds right after reset (O10). -/

namespace Sys2Proof.Machine

/-! ## The invariant right after reset (R270, R271) -/

/-- After reset `RUN = 0` and every slot is `OFF` (43_dispatcher.md R190). -/
theorem State.dispatching_afterReset (cfg : Params) (agenda : List Event) (env : Env) :
    (State.afterReset cfg agenda env).Dispatching :=
  State.dispatching_of_not_run rfl fun j _ => congrArg Activity.ison (State.act_afterReset cfg agenda env j)

/-- After reset every slot is the reset slot, which is sound (R34, R36). -/
theorem State.sound_afterReset (cfg : Params) (agenda : List Event) (env : Env) (j : Nat) :
    ((State.afterReset cfg agenda env).act j).Sound :=
  State.act_afterReset cfg agenda env j ▸ Activity.sound_reset

/-- After reset `ERRCAUSE` is 0 and no flag of the report is set (R26 to R28). -/
theorem State.reporting_afterReset (cfg : Params) (agenda : List Event) (env : Env) :
    (State.afterReset cfg agenda env).Reporting :=
  ⟨Nat.zero_le _, fun _ => rfl, fun _ => rfl, fun _ => rfl⟩

/-- After reset no slot of the store is written (R32). -/
theorem State.pinWords_afterReset (cfg : Params) (agenda : List Event) (env : Env) :
    (State.afterReset cfg agenda env).PinWords := fun _ hx => nomatch hx

theorem State.inv_afterReset {cfg : Params} (h : cfg.Ok) (agenda : List Event) (env : Env) :
    (State.afterReset cfg agenda env).Inv :=
  have ⟨hconfigured, hidle⟩ := State.sound_iff.mp (State.sound_afterReset cfg agenda env)
  { shape := State.shape_afterReset h agenda env
    dispatching := State.dispatching_afterReset cfg agenda env
    configured := hconfigured
    taskIdle := hidle
    reporting := State.reporting_afterReset cfg agenda env
    pinWords := State.pinWords_afterReset cfg agenda env }

/-- The parameters of the test vectors are in range (00_scope.md R5). -/
theorem Params.vectors_ok : Params.vectors.Ok := by decide

/-- Settles O10: `State.reset` is the block right after reset with the parameters of the test vectors. -/
theorem resetMeetsInvariants : Obligations.ResetMeetsInvariants :=
  ⟨State.inv_afterReset Params.vectors_ok [] Env.initial, fun _ agenda env h => State.inv_afterReset h agenda env⟩

end Sys2Proof.Machine
end
